-- ==== Sys2Proof/Word.lean ====
section
/-! DEFINITION. The two word types of the machine: the 8-bit byte and the 14-bit address (00_scope.md R5). -/

namespace Sys2Proof

/-- A data word, an instruction byte, a register: 8 bits (00_scope.md R5, R7). -/
abbrev Byte := BitVec 8

/-- A memory address, a program counter, an entry of the address stack: 14 bits (00_scope.md R5). -/
abbrev Addr := BitVec 14

end Sys2Proof
end

