-- ==== Sys2Proof/Syntax.lean ====
section
/-! DEFINITION. The instructions: one constructor for each of the 73 rows of `opcode_table.json`, with the operands its encoding
carries. Don't-care bits are no operands (30_encoding.md R94). -/

namespace Sys2Proof

/-- The seven registers that a 3-bit register field names (10_state.md R20, R21). Code 111 is no register. -/
inductive Reg where
  | a | b | c | d | e | h | l
deriving DecidableEq, Repr

/-- The instructions, in the order of `opcode_table.json`. An immediate operand is the second byte. A target is the 14-bit
address of the second and third bytes (30_encoding.md R83, R84). -/
inductive Instr where
  -- index register group (40_index_register.md)
  | movRR (dst src : Reg)
  | movRM (dst : Reg)
  | movMR (src : Reg)
  | mviR (dst : Reg) (data : Byte)
  | mviM (data : Byte)
  | inrR (r : Reg)
  | dcrR (r : Reg)
  -- accumulator group (41_accumulator_group.md)
  | addR (src : Reg)
  | addM
  | adi (data : Byte)
  | adcR (src : Reg)
  | adcM
  | aci (data : Byte)
  | subR (src : Reg)
  | subM
  | sui (data : Byte)
  | sbbR (src : Reg)
  | sbbM
  | sbi (data : Byte)
  | anaR (src : Reg)
  | anaM
  | ani (data : Byte)
  | xraR (src : Reg)
  | xraM
  | xri (data : Byte)
  | oraR (src : Reg)
  | oraM
  | ori (data : Byte)
  | cmpR (src : Reg)
  | cmpM
  | cpi (data : Byte)
  | rlc
  | rrc
  | ral
  | rar
  -- program counter and stack control group (42_pc_stack_control.md)
  | jmp (target : Addr)
  | jnc (target : Addr)
  | jnz (target : Addr)
  | jp (target : Addr)
  | jpo (target : Addr)
  | jc (target : Addr)
  | jz (target : Addr)
  | jm (target : Addr)
  | jpe (target : Addr)
  | call (target : Addr)
  | cnc (target : Addr)
  | cnz (target : Addr)
  | cp (target : Addr)
  | cpo (target : Addr)
  | cc (target : Addr)
  | cz (target : Addr)
  | cm (target : Addr)
  | cpe (target : Addr)
  | ret
  | rnc
  | rnz
  | rp
  | rpo
  | rc
  | rz
  | rm
  | rpe
  | rst (n : BitVec 3)
  -- input/output group (43_input_output.md)
  | inP (port : BitVec 3)
  | outP (port : BitVec 5)
  -- machine group (44_machine.md): the two `HLT` rows, 0000000X and 11111111
  | hlt
  | hltFF
  -- the six first bytes that no row of the source's table owns (30_encoding.md R95)
  | undef22
  | undef2A
  | undef32
  | undef3A
  | undef38
  | undef39
deriving DecidableEq, Repr

end Sys2Proof
end

