-- ==== Sys2Proof/WellFormed.lean ====
section
/-! DEFINITION. Which terms of `Instr` an encoding exists for. -/

namespace Sys2Proof

/-- The restrictions of the table: `INR` and `DCR` cannot name A (40_index_register.md R115, R116), and an output port is
8 to 31, RR != 00 (43_input_output.md R231). Every other operand may take every value of its type. -/
def Instr.wellFormed : Instr → Bool
  | .inrR r => r != .a
  | .dcrR r => r != .a
  | .outP port => decide (8 ≤ port.toNat)
  | .movRR _ _ | .movRM _ | .movMR _ | .mviR _ _ | .mviM _ => true
  | .addR _ | .addM | .adi _ | .adcR _ | .adcM | .aci _ => true
  | .subR _ | .subM | .sui _ | .sbbR _ | .sbbM | .sbi _ => true
  | .anaR _ | .anaM | .ani _ | .xraR _ | .xraM | .xri _ | .oraR _ | .oraM | .ori _ => true
  | .cmpR _ | .cmpM | .cpi _ | .rlc | .rrc | .ral | .rar => true
  | .jmp _ | .jnc _ | .jnz _ | .jp _ | .jpo _ | .jc _ | .jz _ | .jm _ | .jpe _ => true
  | .call _ | .cnc _ | .cnz _ | .cp _ | .cpo _ | .cc _ | .cz _ | .cm _ | .cpe _ => true
  | .ret | .rnc | .rnz | .rp | .rpo | .rc | .rz | .rm | .rpe | .rst _ | .inP _ => true
  | .hlt | .hltFF => true
  | .undef22 | .undef2A | .undef32 | .undef3A | .undef38 | .undef39 => true

end Sys2Proof
end

