-- ==== Sys2Proof/Decode.lean ====
section
/-! DEFINITION. The decoder, written from the algorithm of 30_encoding.md R100 over the fields of R81, and after it the encoder,
written from the patterns of R90 to R93 with every don't-care bit 0 (R94). -/

namespace Sys2Proof

/-! ## Fields -/

/-- The major group `G` = D7D6 of an instruction byte (30_encoding.md R81). -/
def majorField (op : Byte) : BitVec 2 := op.extractLsb' 6 2

/-- The middle field `Y` = D5D4D3 (30_encoding.md R81). -/
def middleField (op : Byte) : BitVec 3 := op.extractLsb' 3 3

/-- The low field `W` = D2D1D0 (30_encoding.md R81). -/
def lowField (op : Byte) : BitVec 3 := op.extractLsb' 0 3

/-- An instruction byte from its three fields. -/
def opByte (g : BitVec 2) (y w : BitVec 3) : Byte := (g ++ y ++ w : BitVec (2 + 3 + 3))

/-- The register a 3-bit field names, or `none` for code 111, the memory operand M (10_state.md R21, 30_encoding.md R86). -/
def Reg.ofCode (code : BitVec 3) : Option Reg :=
  match code.toNat with
  | 0 => some .a
  | 1 => some .b
  | 2 => some .c
  | 3 => some .d
  | 4 => some .e
  | 5 => some .h
  | 6 => some .l
  | _ => none

/-- The code of a register (10_state.md R21). -/
def Reg.code : Reg → BitVec 3
  | .a => 0b000#3
  | .b => 0b001#3
  | .c => 0b010#3
  | .d => 0b011#3
  | .e => 0b100#3
  | .h => 0b101#3
  | .l => 0b110#3

/-- The 14-bit address of a low byte `b2` and a high byte `b3`, whose bits 7..6 are don't care (30_encoding.md R84). -/
def addrOf (b2 b3 : Byte) : Addr := (b3.extractLsb' 0 6 ++ b2 : BitVec (6 + 8))

/-- The low address byte of a target (30_encoding.md R84). -/
def addrLow (t : Addr) : Byte := t.extractLsb' 0 8

/-- The high address byte of a target, its bits 7..6 zero (30_encoding.md R84, R94). -/
def addrHigh (t : Addr) : Byte := (0#2 ++ t.extractLsb' 8 6 : BitVec (2 + 6))

/-! ## Length -/

/-- The length in bytes of the instruction with first byte `op` (30_encoding.md R89). -/
def instrLength (op : Byte) : Nat :=
  if majorField op = 0b00#2 ∧ (lowField op = 0b100#3 ∨ lowField op = 0b110#3) then 2
  else if majorField op = 0b01#2 ∧ op.getLsbD 0 = false then 3
  else 1

/-! ## The opcode map -/

/-- The eight operations in register form, by `PPP` (30_encoding.md R87, R92). -/
def aluRegister (ppp : BitVec 3) (src : Reg) : Instr :=
  match ppp.toNat with
  | 0 => .addR src
  | 1 => .adcR src
  | 2 => .subR src
  | 3 => .sbbR src
  | 4 => .anaR src
  | 5 => .xraR src
  | 6 => .oraR src
  | _ => .cmpR src

/-- The eight operations in memory form, by `PPP` (30_encoding.md R87, R92). -/
def aluMemory (ppp : BitVec 3) : Instr :=
  match ppp.toNat with
  | 0 => .addM
  | 1 => .adcM
  | 2 => .subM
  | 3 => .sbbM
  | 4 => .anaM
  | 5 => .xraM
  | 6 => .oraM
  | _ => .cmpM

/-- The eight operations in immediate form, by `PPP` (30_encoding.md R87, R90). -/
def aluImmediate (ppp : BitVec 3) (data : Byte) : Instr :=
  match ppp.toNat with
  | 0 => .adi data
  | 1 => .aci data
  | 2 => .sui data
  | 3 => .sbi data
  | 4 => .ani data
  | 5 => .xri data
  | 6 => .ori data
  | _ => .cpi data

/-- The conditional jumps, by `T C4C3` (30_encoding.md R88, R91). -/
def jumpConditional (tcc : BitVec 3) (target : Addr) : Instr :=
  match tcc.toNat with
  | 0 => .jnc target
  | 1 => .jnz target
  | 2 => .jp target
  | 3 => .jpo target
  | 4 => .jc target
  | 5 => .jz target
  | 6 => .jm target
  | _ => .jpe target

/-- The conditional calls, by `T C4C3` (30_encoding.md R88, R91). -/
def callConditional (tcc : BitVec 3) (target : Addr) : Instr :=
  match tcc.toNat with
  | 0 => .cnc target
  | 1 => .cnz target
  | 2 => .cp target
  | 3 => .cpo target
  | 4 => .cc target
  | 5 => .cz target
  | 6 => .cm target
  | _ => .cpe target

/-- The conditional returns, by `T C4C3` (30_encoding.md R88, R90). -/
def returnConditional (tcc : BitVec 3) : Instr :=
  match tcc.toNat with
  | 0 => .rnc
  | 1 => .rnz
  | 2 => .rp
  | 3 => .rpo
  | 4 => .rc
  | 5 => .rz
  | 6 => .rm
  | _ => .rpe

/-- `00 DDD 000`: `HLT` for DDD = 000, undefined for DDD = 111, else `INR r` (30_encoding.md R90, R95, R96). -/
def decodeIncrement (y : BitVec 3) : Instr :=
  match Reg.ofCode y with
  | none => .undef38
  | some .a => .hlt
  | some r => .inrR r

/-- `00 DDD 001`: `HLT` for DDD = 000, undefined for DDD = 111, else `DCR r` (30_encoding.md R90, R95, R96). -/
def decodeDecrement (y : BitVec 3) : Instr :=
  match Reg.ofCode y with
  | none => .undef39
  | some .a => .hlt
  | some r => .dcrR r

/-- `00 0YY 010`: the four rotates, and `00 1YY 010`: undefined (30_encoding.md R90, R95). -/
def decodeRotate (y : BitVec 3) : Instr :=
  match y.toNat with
  | 0 => .rlc
  | 1 => .rrc
  | 2 => .ral
  | 3 => .rar
  | 4 => .undef22
  | 5 => .undef2A
  | 6 => .undef32
  | _ => .undef3A

/-- `00 DDD 110`: `MVI M` for DDD = 111, else `MVI r` (30_encoding.md R90). -/
def decodeMoveImmediate (y : BitVec 3) (data : Byte) : Instr :=
  match Reg.ofCode y with
  | none => .mviM data
  | some r => .mviR r data

/-- Group 00 (30_encoding.md R90). -/
def decodeGroup00 (y w : BitVec 3) (b2 : Byte) : Instr :=
  match w.toNat with
  | 0 => decodeIncrement y
  | 1 => decodeDecrement y
  | 2 => decodeRotate y
  | 3 => returnConditional y
  | 4 => aluImmediate y b2
  | 5 => .rst y
  | 6 => decodeMoveImmediate y b2
  | _ => .ret

/-- Group 01 (30_encoding.md R91): jumps and calls for W = 000, 010, 100, 110, `IN` and `OUT` for odd W. -/
def decodeGroup01 (op : Byte) (y w : BitVec 3) (target : Addr) : Instr :=
  match w.toNat with
  | 0 => jumpConditional y target
  | 2 => callConditional y target
  | 4 => .jmp target
  | 6 => .call target
  | _ => if op.extractLsb' 4 2 = 0b00#2 then .inP (op.extractLsb' 1 3) else .outP (op.extractLsb' 1 5)

/-- Group 10 (30_encoding.md R92). -/
def decodeGroup10 (y w : BitVec 3) : Instr :=
  match Reg.ofCode w with
  | none => aluMemory y
  | some src => aluRegister y src

/-- Group 11 (30_encoding.md R93, R96). -/
def decodeGroup11 (y w : BitVec 3) : Instr :=
  match Reg.ofCode y, Reg.ofCode w with
  | none, none => .hltFF
  | none, some src => .movMR src
  | some dst, none => .movRM dst
  | some dst, some src => .movRR dst src

/-- The instruction with first byte `op`, second byte `b2` and third byte `b3`; the bytes beyond its length are ignored
(30_encoding.md R100). Every first byte has an answer: the six undefined ones have their own constructors. -/
def decodeWith (op b2 b3 : Byte) : Instr :=
  match (majorField op).toNat with
  | 0 => decodeGroup00 (middleField op) (lowField op) b2
  | 1 => decodeGroup01 op (middleField op) (lowField op) (addrOf b2 b3)
  | 2 => decodeGroup10 (middleField op) (lowField op)
  | _ => decodeGroup11 (middleField op) (lowField op)

/-! ## Decoding a list of bytes -/

/-- Why a list of bytes holds no whole instruction. -/
inductive DecodeError where
  /-- There is no byte. -/
  | noBytes
  /-- The first byte asks for more bytes than follow it. -/
  | truncated (op : Byte)
deriving DecidableEq, Repr

/-- The first instruction of a list of bytes and the bytes after it (30_encoding.md R80, R89, R100). -/
def decode : List Byte → Except DecodeError (Instr × List Byte)
  | [] => .error .noBytes
  | op :: rest =>
    match instrLength op, rest with
    | 1, tail => .ok (decodeWith op 0 0, tail)
    | 2, b2 :: tail => .ok (decodeWith op b2 0, tail)
    | 3, b2 :: b3 :: tail => .ok (decodeWith op b2 b3, tail)
    | _, _ => .error (.truncated op)

/-- Byte `k` of a number whose bit 0 is the least significant bit of the first byte. -/
def byteOfWord (w k : Nat) : Byte := BitVec.ofNat 8 (w / 256 ^ k)

/-- The three bytes of an instruction given as a number of `nbits` bits; every bit above is 0. -/
def bytesOfWord (nbits w : Nat) : List Byte :=
  let v := w % 2 ^ nbits
  [byteOfWord v 0, byteOfWord v 1, byteOfWord v 2]

/-- The instruction the decoder reads from the bits `w`, numbered as `opcode_table.json` numbers them. -/
def decodeTableWord (nbits w : Nat) : Option Instr :=
  match decode (bytesOfWord nbits w) with
  | .ok (i, _) => some i
  | .error _ => none

/-! ## The encoder -/

/-- The bytes of a one-byte instruction `G Y W`. -/
def encode1 (g : BitVec 2) (y w : BitVec 3) : List Byte := [opByte g y w]

/-- The bytes of a two-byte instruction (30_encoding.md R83). -/
def encode2 (g : BitVec 2) (y w : BitVec 3) (data : Byte) : List Byte := [opByte g y w, data]

/-- The bytes of a three-byte instruction, low address byte first (30_encoding.md R84). -/
def encode3 (y w : BitVec 3) (t : Addr) : List Byte := [opByte 0b01#2 y w, addrLow t, addrHigh t]

/-- The bytes of an instruction, don't-care bits 0 (30_encoding.md R90 to R94). -/
def encode : Instr → List Byte
  | .movRR dst src => encode1 0b11#2 dst.code src.code
  | .movRM dst => encode1 0b11#2 dst.code 0b111#3
  | .movMR src => encode1 0b11#2 0b111#3 src.code
  | .mviR dst data => encode2 0b00#2 dst.code 0b110#3 data
  | .mviM data => encode2 0b00#2 0b111#3 0b110#3 data
  | .inrR r => encode1 0b00#2 r.code 0b000#3
  | .dcrR r => encode1 0b00#2 r.code 0b001#3
  | .addR src => encode1 0b10#2 0b000#3 src.code
  | .addM => encode1 0b10#2 0b000#3 0b111#3
  | .adi data => encode2 0b00#2 0b000#3 0b100#3 data
  | .adcR src => encode1 0b10#2 0b001#3 src.code
  | .adcM => encode1 0b10#2 0b001#3 0b111#3
  | .aci data => encode2 0b00#2 0b001#3 0b100#3 data
  | .subR src => encode1 0b10#2 0b010#3 src.code
  | .subM => encode1 0b10#2 0b010#3 0b111#3
  | .sui data => encode2 0b00#2 0b010#3 0b100#3 data
  | .sbbR src => encode1 0b10#2 0b011#3 src.code
  | .sbbM => encode1 0b10#2 0b011#3 0b111#3
  | .sbi data => encode2 0b00#2 0b011#3 0b100#3 data
  | .anaR src => encode1 0b10#2 0b100#3 src.code
  | .anaM => encode1 0b10#2 0b100#3 0b111#3
  | .ani data => encode2 0b00#2 0b100#3 0b100#3 data
  | .xraR src => encode1 0b10#2 0b101#3 src.code
  | .xraM => encode1 0b10#2 0b101#3 0b111#3
  | .xri data => encode2 0b00#2 0b101#3 0b100#3 data
  | .oraR src => encode1 0b10#2 0b110#3 src.code
  | .oraM => encode1 0b10#2 0b110#3 0b111#3
  | .ori data => encode2 0b00#2 0b110#3 0b100#3 data
  | .cmpR src => encode1 0b10#2 0b111#3 src.code
  | .cmpM => encode1 0b10#2 0b111#3 0b111#3
  | .cpi data => encode2 0b00#2 0b111#3 0b100#3 data
  | .rlc => encode1 0b00#2 0b000#3 0b010#3
  | .rrc => encode1 0b00#2 0b001#3 0b010#3
  | .ral => encode1 0b00#2 0b010#3 0b010#3
  | .rar => encode1 0b00#2 0b011#3 0b010#3
  | .jmp t => encode3 0b000#3 0b100#3 t
  | .jnc t => encode3 0b000#3 0b000#3 t
  | .jnz t => encode3 0b001#3 0b000#3 t
  | .jp t => encode3 0b010#3 0b000#3 t
  | .jpo t => encode3 0b011#3 0b000#3 t
  | .jc t => encode3 0b100#3 0b000#3 t
  | .jz t => encode3 0b101#3 0b000#3 t
  | .jm t => encode3 0b110#3 0b000#3 t
  | .jpe t => encode3 0b111#3 0b000#3 t
  | .call t => encode3 0b000#3 0b110#3 t
  | .cnc t => encode3 0b000#3 0b010#3 t
  | .cnz t => encode3 0b001#3 0b010#3 t
  | .cp t => encode3 0b010#3 0b010#3 t
  | .cpo t => encode3 0b011#3 0b010#3 t
  | .cc t => encode3 0b100#3 0b010#3 t
  | .cz t => encode3 0b101#3 0b010#3 t
  | .cm t => encode3 0b110#3 0b010#3 t
  | .cpe t => encode3 0b111#3 0b010#3 t
  | .ret => encode1 0b00#2 0b000#3 0b111#3
  | .rnc => encode1 0b00#2 0b000#3 0b011#3
  | .rnz => encode1 0b00#2 0b001#3 0b011#3
  | .rp => encode1 0b00#2 0b010#3 0b011#3
  | .rpo => encode1 0b00#2 0b011#3 0b011#3
  | .rc => encode1 0b00#2 0b100#3 0b011#3
  | .rz => encode1 0b00#2 0b101#3 0b011#3
  | .rm => encode1 0b00#2 0b110#3 0b011#3
  | .rpe => encode1 0b00#2 0b111#3 0b011#3
  | .rst n => encode1 0b00#2 n 0b101#3
  | .inP port => [(0b0100#4 ++ port ++ 1#1 : BitVec (4 + 3 + 1))]
  | .outP port => [(0b01#2 ++ port ++ 1#1 : BitVec (2 + 5 + 1))]
  | .hlt => encode1 0b00#2 0b000#3 0b000#3
  | .hltFF => encode1 0b11#2 0b111#3 0b111#3
  | .undef22 => [0x22]
  | .undef2A => [0x2A]
  | .undef32 => [0x32]
  | .undef3A => [0x3A]
  | .undef38 => [0x38]
  | .undef39 => [0x39]

end Sys2Proof
end

