-- ==== Sys2Proof/Config.lean ====
section
/-! DEFINITION. The constants of the machine and the free values the spec leaves open. -/

namespace Sys2Proof.Config

/-- Words in the memory address space (20_memory.md R50). -/
def memSize : Nat := 16384

/-- What an address that the memory list does not name holds.
DESIGN CHOICE, unsafe (log entry 2): the spec leaves the initial content open. -/
def unwrittenByte : Byte := 0x00

/-- The default of the byte a platform supplies with the first interrupt, `RST 0` (70_reset_and_hazards.md R292, decision D11).
UNVERIFIED, unsafe (log entry 7). -/
def bootInstruction : Byte := 0x05

/-- The free value of the `n`-th draw: what an absent address reads as (20_memory.md R55) and what an input port gives
when no stream says (43_input_output.md R233). It has no body, so no proof can see its value. Safe (log entries 4 and 5). -/
opaque freeByte : Nat → Byte

end Sys2Proof.Config
end

