-- ==== Sys2Proof/Machine/State.lean ====
section
/-! DEFINITION. The state of the machine as plain data, the reasons a step can stop, and the state after power-on.
The CPU's own state is the tuple of 10_state.md R40; the environment's side is the parameters of 00_scope.md R6 and the output
history of 43_input_output.md R233, held as data so that a run is determined by its first state. -/

namespace Sys2Proof.Machine

/-- The seven general registers (10_state.md R20). -/
structure Regs where
  a : Byte
  b : Byte
  c : Byte
  d : Byte
  e : Byte
  h : Byte
  l : Byte
deriving DecidableEq, Repr

/-- The four flag flip-flops: carry, zero, sign, parity (10_state.md R25). -/
structure Flags where
  cy : Bool
  z : Bool
  s : Bool
  p : Bool
deriving DecidableEq, Repr

/-- `RUNNING` or `STOPPED` (10_state.md R33). -/
inductive RunState where
  | running
  | stopped
deriving DecidableEq, Repr

/-- What the platform puts at an address: RAM (shift-register memory included), ROM, or nothing (20_memory.md R55). -/
inductive MemKind where
  | ram
  | rom
  | absent
deriving DecidableEq, Repr

/-- A run of `size` addresses from `base` on, all of one kind. -/
structure Region where
  base : Addr
  size : Nat
  kind : MemKind
deriving DecidableEq, Repr

/-- Memory contents: (address, byte) pairs, addresses strictly rising, no byte equal to what an unlisted address holds. -/
abbrev Memory := List Host.Cell

/-- An event of the output history: the port and the byte delivered to it (43_input_output.md R233). -/
structure OutEvent where
  port : BitVec 5
  value : Byte
deriving DecidableEq, Repr

/-- What nesting deeper than seven levels, and a return with nothing saved, do: the parameter `StackPolicy`
(00_scope.md R6, 10_state.md R32, log entry 11). -/
inductive StackPolicy where
  | wrap
  | fault
deriving DecidableEq, Repr

/-- The parameter `SpeedGrade`: the part numbers 8008 and 8008-1 (00_scope.md R6). Timing only: no rule reads it
(decision D20, log entry 21). -/
inductive SpeedGrade where
  | i8008
  | i8008_1
deriving DecidableEq, Repr

/-- The machine and its environment between two instructions. -/
structure State where
  /-- A, B, C, D, E, H, L (10_state.md R20). -/
  regs : Regs
  /-- Carry, zero, sign, parity (10_state.md R25). -/
  flags : Flags
  /-- The address stack `STK[0..7]` (10_state.md R28). -/
  stk : Vector Addr 8
  /-- The stack pointer: `STK[SP]` is the program counter (10_state.md R29). -/
  sp : BitVec 3
  /-- `depth`: the pushes less the pops since the start of the run (10_state.md R32, log entry 11). -/
  depth : Int
  /-- The run state (10_state.md R33). -/
  run : RunState
  /-- An interrupt is requested and not yet taken (10_state.md R34). -/
  intreq : Bool
  /-- The memory words (10_state.md R40, 20_memory.md R50). -/
  mem : Memory
  /-- The platform's memory map, first matching region first; an address in no region is RAM (20_memory.md R55, log entry 3). -/
  memMap : List Region
  /-- The platform's `StackPolicy` (00_scope.md R6, 10_state.md R32, log entry 11). -/
  stackPolicy : StackPolicy
  /-- The input stream of each port, next byte first (43_input_output.md R233, log entry 5). -/
  inputs : Vector (List Byte) 8
  /-- The output history, oldest event first (43_input_output.md R233, log entry 6). -/
  outputs : List OutEvent
  /-- The instruction byte the interrupting device holds ready (60_exceptions.md R254, log entry 8). -/
  intByte : Byte
  /-- What the environment does on INT during each coming step: nothing, or a request with this byte
  (60_exceptions.md R253, log entry 8). -/
  intSource : List (Option Byte)
  /-- The model's own field: how many free values have been drawn (log entry 4). -/
  draws : Nat
deriving DecidableEq, Repr

/-- The faults of the machine: none. The hardware raises no trap, fault or abort of any kind (60_exceptions.md R250, decision
D17, log entry 24), so this type has no constructor and no step can end in a fault. -/
inductive Fault
deriving DecidableEq, Repr

/-- The reasons the model has no step. -/
inductive Refusal where
  /-- Raised by an arm of `exec` whose instruction has no meaning yet: no arm does. Safe. -/
  | notModelled (mnemonic : String)
  /-- Raised by the six undefined first bytes, `refuse UndefinedOpcode(b)` (30_encoding.md R95, log entry 19). Safe: the spec
  gives the byte no effect, and nothing can be proved of what the chip does with it. -/
  | undefinedOpcode (op : Byte)
  /-- Raised by a push at depth 7 (a call, a restart, an interrupt that supplies one) where the platform's `StackPolicy` is `fault`,
  and by nothing else (10_state.md R32, log entry 11). Safe: the spec offers the refusal as the cautious reading. -/
  | pushAtDepthSeven
  /-- Raised by a pop at depth 0 (a return) where the platform's `StackPolicy` is `fault`, and by nothing else
  (10_state.md R32, log entry 11). Safe: the spec offers the refusal as the cautious reading. -/
  | popAtDepthZero
deriving DecidableEq, Repr

/-- The outcome of an instruction or of a step. -/
abbrev Result := Host.Outcome State Fault Refusal

/-- What the registers, flags, stack entries and SP hold when power is applied: the parameter `PowerOnState`
(00_scope.md R6, 10_state.md R40). Every value of this type is allowed by its option `unspecified`. -/
structure PowerOnValues where
  regs : Regs
  flags : Flags
  stk : Vector Addr 8
  sp : BitVec 3
deriving DecidableEq, Repr

/-- The option `PowerOnState = cleared`: registers, stack entries and SP are zero; the flags it leaves unspecified are given
(10_state.md R40). -/
def PowerOnValues.cleared (f : Flags) : PowerOnValues where
  regs := { a := 0, b := 0, c := 0, d := 0, e := 0, h := 0, l := 0 }
  flags := f
  stk := Vector.replicate 8 0
  sp := 0

/-- The parameters the source leaves to the platform, each an argument of the model (00_scope.md R6). -/
structure Platform where
  /-- `MemMap`: what stands at each address (20_memory.md R55, log entry 3). -/
  memMap : List Region
  /-- `MemMap`: the initial contents, in the canonical form `Memory.wf` (20_memory.md R55, log entry 2). -/
  mem : Memory
  /-- `PortIn`: the input stream of each port, a free value past its end (43_input_output.md R233, log entry 5). -/
  inputs : Vector (List Byte) 8
  /-- `IntSource`: what the environment does on INT during each step after the first (60_exceptions.md R253, log entry 8). -/
  intSource : List (Option Byte)
  /-- `PowerOnState` (10_state.md R40, log entry 1). -/
  powerOn : PowerOnValues
  /-- `BootInstruction`: the byte supplied with the first interrupt (70_reset_and_hazards.md R292, log entry 7). -/
  bootInstruction : Byte
  /-- `StackPolicy` (10_state.md R32, log entry 11). -/
  stackPolicy : StackPolicy
  /-- `SpeedGrade`, which no rule reads (70_reset_and_hazards.md R300, log entry 21). -/
  speedGrade : SpeedGrade
deriving DecidableEq, Repr

/-- The defaults of 92_eei_decisions.md: `BootInstruction` D11, `StackPolicy` D6, `MemMap` D16, an oracle at every port D22. The rest is
the model's: the zero registers, flags, stack entries and SP are a DESIGN CHOICE, unsafe (log entry 1); so is the memory that lists
nothing (log entry 2); so is the interrupt source that raises nothing after the boot, which D8 has as the default only for a claim about a
program without interrupts (log entry 7). The speed grade 8008 is a DESIGN CHOICE, safe: the spec gives no default, and nothing reads it
(log entry 21). -/
def Platform.standard : Platform where
  memMap := []
  mem := []
  inputs := Vector.replicate 8 []
  intSource := []
  powerOn := .cleared { cy := false, z := false, s := false, p := false }
  bootInstruction := Config.bootInstruction
  stackPolicy := .wrap
  speedGrade := .i8008

/-- The state right after power-on on a platform (10_state.md R40, 70_reset_and_hazards.md R290): STOPPED with no interrupt pending, and the
platform's first interrupt with its `BootInstruction` coming (70_reset_and_hazards.md R292, log entry 7). -/
def State.powerOn (p : Platform) : State where
  regs := p.powerOn.regs
  flags := p.powerOn.flags
  stk := p.powerOn.stk
  sp := p.powerOn.sp
  depth := 0
  run := .stopped
  intreq := false
  mem := p.mem
  memMap := p.memMap
  stackPolicy := p.stackPolicy
  inputs := p.inputs
  outputs := []
  intByte := 0
  intSource := some p.bootInstruction :: p.intSource
  draws := 0

/-- The state right after power-on on the standard platform. -/
def State.reset : State := State.powerOn .standard

end Sys2Proof.Machine
end

