-- ==== Sys2Proof/Machine/Flags.lean ====
section
/-! DEFINITION. Every flag computation and the arithmetic of the accumulator group, on values (10_state.md R27,
41_accumulator_group.md R131 to R133 and R158 to R161, 42_pc_stack_control.md R180). -/

namespace Sys2Proof.Machine

/-! ## Zero, sign, parity -/

/-- How many bits of a byte are 1. -/
def onesCount (v : Byte) : Nat :=
  (v.getLsbD 7).toNat + (v.getLsbD 6).toNat + (v.getLsbD 5).toNat + (v.getLsbD 4).toNat
    + (v.getLsbD 3).toNat + (v.getLsbD 2).toNat + (v.getLsbD 1).toNat + (v.getLsbD 0).toNat

/-- An even number of 1 bits; 00H counts as even (10_state.md R25, R27). -/
def evenParity (v : Byte) : Bool := onesCount v % 2 == 0

/-- `SetZSP`: zero, sign and parity from a result, the carry kept (10_state.md R27). -/
def Flags.setZSP (f : Flags) (v : Byte) : Flags :=
  { f with z := v == 0, s := v.getLsbD 7, p := evenParity v }

/-- The carry written, the other three kept. -/
def Flags.setCarry (f : Flags) (carry : Bool) : Flags := { f with cy := carry }

/-- All four flags of an accumulator-group result: its carry, and `SetZSP` (41_accumulator_group.md R134 to R157). -/
def resultFlags (carry : Bool) (v : Byte) : Flags :=
  { cy := carry, z := v == 0, s := v.getLsbD 7, p := evenParity v }

/-! ## Addition and subtraction -/

/-- `Add8`: the sum modulo 256 and the carry out of bit 7 (41_accumulator_group.md R131; that the carry is cleared when there is
none is decision D5, log entry 17). -/
def add8 (a v : Byte) (cin : Bool) : Byte × Bool :=
  let t : Nat := a.toNat + v.toNat + cin.toNat
  (BitVec.ofNat 8 t, decide (255 < t))

/-- `Sub8`: the difference modulo 256 and the borrow, not complemented (41_accumulator_group.md R132, decision D5, log entry 17). -/
def sub8 (a v : Byte) (bin : Bool) : Byte × Bool :=
  let t : Int := (a.toNat : Int) - (v.toNat : Int) - (bin.toNat : Int)
  (BitVec.ofInt 8 t, decide (t < 0))

/-- The carry after a logical operation (41_accumulator_group.md R133, decision D2, log entry 14). UNVERIFIED, unsafe. -/
def logicCarry : Bool := false

/-! ## Rotates: the new accumulator and the new carry -/

/-- `RLC`: bit 7 re-enters at bit 0 (41_accumulator_group.md R158; the carry is decision D4, log entry 16). -/
def rotateLeft (old : Byte) : Byte × Bool :=
  ((old.extractLsb' 0 7 ++ old.extractLsb' 7 1 : BitVec (7 + 1)), old.getLsbD 7)

/-- `RRC`: bit 0 re-enters at bit 7 (41_accumulator_group.md R159; the carry is decision D4, log entry 16). -/
def rotateRight (old : Byte) : Byte × Bool :=
  ((old.extractLsb' 0 1 ++ old.extractLsb' 1 7 : BitVec (1 + 7)), old.getLsbD 0)

/-- `RAL`: the carry enters at bit 0, bit 7 leaves into the carry (41_accumulator_group.md R160). -/
def rotateLeftCarry (old : Byte) (carry : Bool) : Byte × Bool :=
  ((old.extractLsb' 0 7 ++ BitVec.ofBool carry : BitVec (7 + 1)), old.getLsbD 7)

/-- `RAR`: the carry enters at bit 7, bit 0 leaves into the carry (41_accumulator_group.md R161). -/
def rotateRightCarry (old : Byte) (carry : Bool) : Byte × Bool :=
  ((BitVec.ofBool carry ++ old.extractLsb' 1 7 : BitVec (1 + 7)), old.getLsbD 0)

/-! ## Conditions -/

/-- The condition flip-flop that `C4C3` selects (42_pc_stack_control.md R180). -/
def Flags.condition (f : Flags) (cc : BitVec 2) : Bool :=
  match cc.toNat with
  | 0 => f.cy
  | 1 => f.z
  | 2 => f.s
  | _ => f.p

/-- `Taken(T, cc)`: the transfer is made when the selected flag equals the sense bit (42_pc_stack_control.md R180). -/
def Flags.taken (f : Flags) (sense : Bool) (cc : BitVec 2) : Bool := f.condition cc == sense

end Sys2Proof.Machine
end

