-- ==== Sys2Proof/Machine/Ops.lean ====
section
/-! DEFINITION. The named operations over registers, memory, the address stack, the ports and the interrupt. -/

namespace Sys2Proof.Machine

/-! ## Memory as data -/

/-- The byte a memory list holds at an address. -/
def Memory.read : Memory → Nat → Byte
  | [], _ => Config.unwrittenByte
  | (k, v) :: rest, a => if k = a then v else Memory.read rest a

/-- The list without any entry at an address. -/
def Memory.erase (m : Memory) (a : Nat) : Memory := m.filter (fun cell => cell.1 != a)

/-- The list with the entry (`a`, `v`) at its place in rising order. -/
def Memory.insert : Memory → Nat → Byte → Memory
  | [], a, v => [(a, v)]
  | (k, w) :: rest, a, v =>
    if a < k then (a, v) :: (k, w) :: rest
    else if k = a then (a, v) :: rest
    else (k, w) :: Memory.insert rest a v

/-- A write keeps the canonical form: the byte that an unlisted address holds removes the entry. -/
def Memory.write (m : Memory) (a : Nat) (v : Byte) : Memory :=
  if v = Config.unwrittenByte then m.erase a else m.insert a v

/-- The canonical form: addresses strictly rising and inside the address space, no entry equal to what an unlisted address
holds. -/
abbrev Memory.wf (m : Memory) : Prop :=
  m.Pairwise (fun x y => x.1 < y.1) ∧ ∀ cell ∈ m, cell.1 < Config.memSize ∧ cell.2 ≠ Config.unwrittenByte

/-! ## Registers and flags -/

/-- A register's value (10_state.md R20, R21). -/
def Regs.get (x : Regs) : Reg → Byte
  | .a => x.a
  | .b => x.b
  | .c => x.c
  | .d => x.d
  | .e => x.e
  | .h => x.h
  | .l => x.l

/-- A register written, the others kept (10_state.md R20). -/
def Regs.set (x : Regs) (r : Reg) (v : Byte) : Regs :=
  match r with
  | .a => { x with a := v }
  | .b => { x with b := v }
  | .c => { x with c := v }
  | .d => { x with d := v }
  | .e => { x with e := v }
  | .h => { x with h := v }
  | .l => { x with l := v }

/-- `x[r]` (00_scope.md R9). -/
def State.reg (s : State) (r : Reg) : Byte := s.regs.get r

/-- `x[r] <- v` (00_scope.md R9). -/
def State.setReg (s : State) (r : Reg) (v : Byte) : State := { s with regs := s.regs.set r v }

/-- The four flags written. -/
def State.setFlags (s : State) (f : Flags) : State := { s with flags := f }

/-- The run state written. -/
def State.setRun (s : State) (r : RunState) : State := { s with run := r }

/-! ## Memory accesses -/

/-- Whether an address lies in a region. -/
def Region.covers (r : Region) (a : Addr) : Bool :=
  decide (r.base.toNat ≤ a.toNat) && decide (a.toNat < r.base.toNat + r.size)

/-- The kind of an address by a list of regions: the first that covers it, else RAM (log entry 3). -/
def kindIn : List Region → Addr → MemKind
  | [], _ => .ram
  | r :: rest, a => if r.covers a then r.kind else kindIn rest a

/-- What the platform's `MemMap` puts at an address (20_memory.md R55). -/
def State.kindAt (s : State) (a : Addr) : MemKind := kindIn s.memMap a

/-- The byte the memory holds at an address, whatever stands there; claims about memory speak of it. -/
def State.byteAt (s : State) (a : Addr) : Byte := s.mem.read a.toNat

/-- The count of draws written. -/
def State.setDraws (s : State) (n : Nat) : State := { s with draws := n }

/-- A draw: the next free value, and the state that has used it up (log entry 4). -/
def State.draw (s : State) : Byte × State := (Config.freeByte s.draws, s.setDraws (s.draws + 1))

/-- `MemRead(a, 1)`: RAM and ROM give the byte they hold, an absent address a free value at each read (20_memory.md R55, R67). -/
def State.memRead (s : State) (a : Addr) : Byte × State :=
  match s.kindAt a with
  | .ram => (s.byteAt a, s)
  | .rom => (s.byteAt a, s)
  | .absent => s.draw

/-- `MemWrite(a, 1, v)`: RAM stores, ROM and an absent address change nothing (20_memory.md R55, R67). -/
def State.memWrite (s : State) (a : Addr) (v : Byte) : State :=
  match s.kindAt a with
  | .ram => { s with mem := s.mem.write a.toNat v }
  | .rom => s
  | .absent => s

/-! ## The address stack and the program counter -/

/-- `STK[k]` (10_state.md R28). -/
def State.entry (s : State) (k : BitVec 3) : Addr := s.stk[k.toNat]'k.isLt

/-- `STK[k] <- v`. -/
def State.setEntry (s : State) (k : BitVec 3) (v : Addr) : State := { s with stk := s.stk.set k.toNat v k.isLt }

/-- The stack pointer and the depth written. -/
def State.setLevel (s : State) (k : BitVec 3) (d : Int) : State := { s with sp := k, depth := d }

/-- The program counter, `STK[SP]` (10_state.md R29, R30). -/
def State.pc (s : State) : Addr := s.entry s.sp

/-- `pc <- t`: a write of `STK[SP]` (00_scope.md R9). -/
def State.setPc (s : State) (t : Addr) : State := s.setEntry s.sp t

/-- `Push(t)`: up one level in the stack; `t` becomes the new `pc` and the old entry is kept (10_state.md R31). The pointer
counts modulo 8 (decision D6, log entry 11). -/
def State.push (s : State) (t : Addr) : State := (s.setLevel (s.sp + 1) (s.depth + 1)).setPc t

/-- `Pop()`: down one level in the stack; the entry exposed becomes `pc` (10_state.md R31). This is every return, from a
subroutine and from an interrupt routine alike (60_exceptions.md R257). -/
def State.pop (s : State) : State := s.setLevel (s.sp - 1) (s.depth - 1)

/-- `Push(t)` as the platform's `StackPolicy` has it: `wrap` checks nothing, `fault` refuses a push at depth 7
(10_state.md R32, log entry 11). -/
def State.tryPush (s : State) (t : Addr) : Result :=
  if s.stackPolicy = .fault ∧ s.depth = 7 then .refused .pushAtDepthSeven else .next (s.push t)

/-- `Pop()` as the platform's `StackPolicy` has it: `wrap` checks nothing, `fault` refuses a pop at depth 0
(10_state.md R32, log entry 11). -/
def State.tryPop (s : State) : Result :=
  if s.stackPolicy = .fault ∧ s.depth = 0 then .refused .popAtDepthZero else .next s.pop

/-! ## Instruction fetch -/

/-- `Fetch()`: the byte at `pc`, and `pc` one further modulo 2^14 (10_state.md R30). -/
def State.fetch (s : State) : Byte × State :=
  let got := s.memRead s.pc
  (got.1, got.2.setPc (s.pc + 1))

/-- The rest of the instruction with first byte `op`: its further bytes from `Fetch()`, low address byte first, all of them
before the instruction acts (20_memory.md R68, 42_pc_stack_control.md R181, R211). -/
def State.fetchRest (s : State) (op : Byte) : Instr × State :=
  match instrLength op with
  | 1 => (decodeWith op 0 0, s)
  | 2 =>
    let second := s.fetch
    (decodeWith op second.1 0, second.2)
  | _ =>
    let second := s.fetch
    let third := second.2.fetch
    (decodeWith op second.1 third.1, third.2)

/-- The instruction at `pc`, and the state in which `pc` has passed all its bytes (10_state.md R30). -/
def State.fetchInstr (s : State) : Instr × State :=
  let first := s.fetch
  first.2.fetchRest first.1

/-! ## The interrupt -/

/-- The interrupt is taken: `intreq <- 0`, `run <- RUNNING`, and nothing else is saved or changed (60_exceptions.md R254, R255,
R256; decision D8, log entry 8). -/
def State.enterInterrupt (s : State) : State := { s with intreq := false, run := .running }

/-- Interrupt entry: the first byte is the device's, `pc` is not advanced for it, and any further bytes come from memory at
`pc` (60_exceptions.md R254, log entry 10). -/
def State.interruptInstr (s : State) : Instr × State := s.enterInterrupt.fetchRest s.intByte

/-- The instruction the next step runs: the interrupt's when one is pending, at a boundary and in STOPPED alike, else the one at
`pc` when RUNNING, else none (60_exceptions.md R253, R256, 44_machine.md R242). -/
def State.nextInstr (s : State) : Option (Instr × State) :=
  if s.intreq then some s.interruptInstr
  else match s.run with
    | .running => some s.fetchInstr
    | .stopped => none

/-- What the environment does on INT while a step runs: one entry of its schedule. A request is pending from the next boundary on
(60_exceptions.md R253, R258, log entry 8). -/
def State.pollInt (s : State) : State :=
  match s.intSource with
  | [] => s
  | none :: rest => { s with intSource := rest }
  | some j :: rest => { s with intSource := rest, intreq := true, intByte := j }

/-- The end of a step: the environment acts on the state the instruction leaves; a stop stays a stop. -/
def endStep : Result → Result
  | .next t => .next t.pollInt
  | .fault r => .fault r
  | .refused r => .refused r

/-! ## Ports -/

/-- The input stream of a port: the bytes the environment has ready for it. -/
def State.stream (s : State) (p : BitVec 3) : List Byte := s.inputs[p.toNat]'p.isLt

/-- The input stream of a port replaced. -/
def State.setStream (s : State) (p : BitVec 3) (bytes : List Byte) : State :=
  { s with inputs := s.inputs.set p.toNat bytes p.isLt }

/-- `PortIn(p)`: the next byte of the port's stream, or a free value when the stream says nothing
(43_input_output.md R233, log entry 5). -/
def State.portIn (s : State) (p : BitVec 3) : Byte × State :=
  match s.stream p with
  | [] => s.draw
  | v :: rest => (v, s.setStream p rest)

/-- `PortOut(p, v)`: the event is appended to the output history (43_input_output.md R233, log entry 6). -/
def State.portOut (s : State) (p : BitVec 5) (v : Byte) : State :=
  { s with outputs := s.outputs ++ [{ port := p, value := v }] }

/-! ## Placing bytes from outside the machine -/

/-- A byte put at an address by the loader: ROM is written too, and an absent address becomes RAM. -/
def State.placeByte (s : State) (a : Addr) (v : Byte) : State :=
  match s.kindAt a with
  | .ram => { s with mem := s.mem.write a.toNat v }
  | .rom => { s with mem := s.mem.write a.toNat v }
  | .absent => { s with mem := s.mem.write a.toNat v, memMap := { base := a, size := 1, kind := .ram } :: s.memMap }

/-- Bytes put at successive addresses, modulo 2^14. -/
def State.placeBytes (s : State) (a : Addr) : List Byte → State
  | [] => s
  | v :: rest => (s.placeByte a v).placeBytes (a + 1) rest

end Sys2Proof.Machine
end

