-- ==== Sys2Proof/Machine/Operands.lean ====
section
/-! DEFINITION. The operand forms: a register, the memory operand M, an immediate byte, a 14-bit target, a restart number.
The register form is `State.reg` and the immediate and target forms are operands of `Instr`, fetched before the meaning runs. -/

namespace Sys2Proof.Machine

/-- `MAddr()` = `H[5:0] : L`; bits 7 and 6 of H take no part (10_state.md R24, decision D1, log entry 12). -/
def State.mAddr (s : State) : Addr :=
  ((s.reg .h).extractLsb' 0 6 ++ s.reg .l : BitVec (6 + 8))

/-- The memory operand M read: its byte and the state after the read (20_memory.md R51). -/
def State.readM (s : State) : Byte × State := s.memRead s.mAddr

/-- The memory operand M written (20_memory.md R51). -/
def State.writeM (s : State) (v : Byte) : State := s.memWrite s.mAddr v

/-- The entry point of `RST n`: `AAA000` extended with zeros, 8 * n (20_memory.md R54, 42_pc_stack_control.md R209). -/
def restartAddr (n : BitVec 3) : Addr := ((n ++ 0b000#3 : BitVec (3 + 3))).setWidth 14

end Sys2Proof.Machine
end

