-- ==== Sys2Proof/Machine/Accumulator.lean ====
section
/-! DEFINITION. The accumulator group: eight operations in register, memory and immediate form, and four rotates
(41_accumulator_group.md). The second operand is read before the accumulator is written (R162). -/

namespace Sys2Proof.Machine

/-! ## Shared operations -/

/-- A result in the accumulator with its carry, and all four flags from it (41_accumulator_group.md R134 to R154). -/
def State.aluResult (s : State) (v : Byte) (carry : Bool) : State := (s.setReg .a v).setFlags (resultFlags carry v)

/-- A plus the operand plus a carry-in (R131). -/
def State.aluAdd (s : State) (v : Byte) (cin : Bool) : State :=
  s.aluResult (add8 (s.reg .a) v cin).1 (add8 (s.reg .a) v cin).2

/-- A minus the operand minus a borrow-in (R132). -/
def State.aluSub (s : State) (v : Byte) (bin : Bool) : State :=
  s.aluResult (sub8 (s.reg .a) v bin).1 (sub8 (s.reg .a) v bin).2

/-- A logical result (R133). -/
def State.aluLogic (s : State) (v : Byte) : State := s.aluResult v logicCarry

/-- The flags of A minus the operand; A is not written (R155 to R157, decision D3, log entry 15). -/
def State.aluCompare (s : State) (v : Byte) : State :=
  s.setFlags (resultFlags (sub8 (s.reg .a) v false).2 (sub8 (s.reg .a) v false).1)

/-- A rotate's accumulator and carry; Z, S, P are kept (R158 to R161). -/
def State.aluRotate (s : State) (rotated : Byte × Bool) : State :=
  (s.setReg .a rotated.1).setFlags (s.flags.setCarry rotated.2)

/-! ## Register, memory and immediate forms -/

/-- `ADD r` (R134). -/
def execAddR (src : Reg) (s : State) : Result := .next (s.aluAdd (s.reg src) false)

/-- `ADD M` (R135). -/
def execAddM (s : State) : Result := .next (s.readM.2.aluAdd s.readM.1 false)

/-- `ADI` (R136). -/
def execAdi (data : Byte) (s : State) : Result := .next (s.aluAdd data false)

/-- `ADC r` (R137). -/
def execAdcR (src : Reg) (s : State) : Result := .next (s.aluAdd (s.reg src) s.flags.cy)

/-- `ADC M` (R138). -/
def execAdcM (s : State) : Result := .next (s.readM.2.aluAdd s.readM.1 s.flags.cy)

/-- `ACI` (R139). -/
def execAci (data : Byte) (s : State) : Result := .next (s.aluAdd data s.flags.cy)

/-- `SUB r` (R140). -/
def execSubR (src : Reg) (s : State) : Result := .next (s.aluSub (s.reg src) false)

/-- `SUB M` (R141). -/
def execSubM (s : State) : Result := .next (s.readM.2.aluSub s.readM.1 false)

/-- `SUI` (R142). -/
def execSui (data : Byte) (s : State) : Result := .next (s.aluSub data false)

/-- `SBB r` (R143). -/
def execSbbR (src : Reg) (s : State) : Result := .next (s.aluSub (s.reg src) s.flags.cy)

/-- `SBB M` (R144). -/
def execSbbM (s : State) : Result := .next (s.readM.2.aluSub s.readM.1 s.flags.cy)

/-- `SBI` (R145). -/
def execSbi (data : Byte) (s : State) : Result := .next (s.aluSub data s.flags.cy)

/-- `ANA r` (R146). -/
def execAnaR (src : Reg) (s : State) : Result := .next (s.aluLogic (s.reg .a &&& s.reg src))

/-- `ANA M` (R147). -/
def execAnaM (s : State) : Result := .next (s.readM.2.aluLogic (s.reg .a &&& s.readM.1))

/-- `ANI` (R148). -/
def execAni (data : Byte) (s : State) : Result := .next (s.aluLogic (s.reg .a &&& data))

/-- `XRA r` (R149). -/
def execXraR (src : Reg) (s : State) : Result := .next (s.aluLogic (s.reg .a ^^^ s.reg src))

/-- `XRA M` (R150). -/
def execXraM (s : State) : Result := .next (s.readM.2.aluLogic (s.reg .a ^^^ s.readM.1))

/-- `XRI` (R151). -/
def execXri (data : Byte) (s : State) : Result := .next (s.aluLogic (s.reg .a ^^^ data))

/-- `ORA r` (R152). -/
def execOraR (src : Reg) (s : State) : Result := .next (s.aluLogic (s.reg .a ||| s.reg src))

/-- `ORA M` (R153). -/
def execOraM (s : State) : Result := .next (s.readM.2.aluLogic (s.reg .a ||| s.readM.1))

/-- `ORI` (R154). -/
def execOri (data : Byte) (s : State) : Result := .next (s.aluLogic (s.reg .a ||| data))

/-- `CMP r` (R155). -/
def execCmpR (src : Reg) (s : State) : Result := .next (s.aluCompare (s.reg src))

/-- `CMP M` (R156). -/
def execCmpM (s : State) : Result := .next (s.readM.2.aluCompare s.readM.1)

/-- `CPI` (R157). -/
def execCpi (data : Byte) (s : State) : Result := .next (s.aluCompare data)

/-! ## Rotates -/

/-- `RLC` (R158). -/
def execRlc (s : State) : Result := .next (s.aluRotate (rotateLeft (s.reg .a)))

/-- `RRC` (R159). -/
def execRrc (s : State) : Result := .next (s.aluRotate (rotateRight (s.reg .a)))

/-- `RAL` (R160). -/
def execRal (s : State) : Result := .next (s.aluRotate (rotateLeftCarry (s.reg .a) s.flags.cy))

/-- `RAR` (R161). -/
def execRar (s : State) : Result := .next (s.aluRotate (rotateRightCarry (s.reg .a) s.flags.cy))

end Sys2Proof.Machine
end

