-- ==== Sys2Proof/Machine/Control.lean ====
section
/-! DEFINITION. The program counter and stack control group: jumps, calls, returns, restart (42_pc_stack_control.md). `pc` has passed
all bytes of the instruction when its meaning runs. No flag and no general register is written (decision D13, log entry 18). The
pairing of mnemonics with `T C4C3` is 30_encoding.md R88 (decision D18, log entry 25). -/

namespace Sys2Proof.Machine

/-! ## Shared operations -/

/-- Jump to `t` when the condition holds, else go on in sequence (42_pc_stack_control.md R180, R211). -/
def State.jumpIf (s : State) (taken : Bool) (t : Addr) : State := if taken then s.setPc t else s

/-- Call `t` when the condition holds, else go on in sequence (R180, R211). -/
def State.callIf (s : State) (taken : Bool) (t : Addr) : Result := if taken then s.tryPush t else .next s

/-- Return when the condition holds, else go on in sequence (R180). -/
def State.returnIf (s : State) (taken : Bool) : Result := if taken then s.tryPop else .next s

/-! ## Jumps -/

/-- `JMP` (R182). -/
def execJmp (target : Addr) (s : State) : Result := .next (s.setPc target)

/-- `JNC` (R183). -/
def execJnc (target : Addr) (s : State) : Result := .next (s.jumpIf (s.flags.taken false 0b00#2) target)

/-- `JNZ` (R184). -/
def execJnz (target : Addr) (s : State) : Result := .next (s.jumpIf (s.flags.taken false 0b01#2) target)

/-- `JP` (R185). -/
def execJp (target : Addr) (s : State) : Result := .next (s.jumpIf (s.flags.taken false 0b10#2) target)

/-- `JPO` (R186). -/
def execJpo (target : Addr) (s : State) : Result := .next (s.jumpIf (s.flags.taken false 0b11#2) target)

/-- `JC` (R187). -/
def execJc (target : Addr) (s : State) : Result := .next (s.jumpIf (s.flags.taken true 0b00#2) target)

/-- `JZ` (R188). -/
def execJz (target : Addr) (s : State) : Result := .next (s.jumpIf (s.flags.taken true 0b01#2) target)

/-- `JM` (R189). -/
def execJm (target : Addr) (s : State) : Result := .next (s.jumpIf (s.flags.taken true 0b10#2) target)

/-- `JPE` (R190). -/
def execJpe (target : Addr) (s : State) : Result := .next (s.jumpIf (s.flags.taken true 0b11#2) target)

/-! ## Calls -/

/-- `CALL` (R191): `pc` is the return address when the push is made. -/
def execCall (target : Addr) (s : State) : Result := s.tryPush target

/-- `CNC` (R192). -/
def execCnc (target : Addr) (s : State) : Result := s.callIf (s.flags.taken false 0b00#2) target

/-- `CNZ` (R193). -/
def execCnz (target : Addr) (s : State) : Result := s.callIf (s.flags.taken false 0b01#2) target

/-- `CP` (R194). -/
def execCp (target : Addr) (s : State) : Result := s.callIf (s.flags.taken false 0b10#2) target

/-- `CPO` (R195). -/
def execCpo (target : Addr) (s : State) : Result := s.callIf (s.flags.taken false 0b11#2) target

/-- `CC` (R196). -/
def execCc (target : Addr) (s : State) : Result := s.callIf (s.flags.taken true 0b00#2) target

/-- `CZ` (R197). -/
def execCz (target : Addr) (s : State) : Result := s.callIf (s.flags.taken true 0b01#2) target

/-- `CM` (R198). -/
def execCm (target : Addr) (s : State) : Result := s.callIf (s.flags.taken true 0b10#2) target

/-- `CPE` (R199). -/
def execCpe (target : Addr) (s : State) : Result := s.callIf (s.flags.taken true 0b11#2) target

/-! ## Returns -/

/-- `RET` (R200). -/
def execRet (s : State) : Result := s.tryPop

/-- `RNC` (R201). -/
def execRnc (s : State) : Result := s.returnIf (s.flags.taken false 0b00#2)

/-- `RNZ` (R202). -/
def execRnz (s : State) : Result := s.returnIf (s.flags.taken false 0b01#2)

/-- `RP` (R203). -/
def execRp (s : State) : Result := s.returnIf (s.flags.taken false 0b10#2)

/-- `RPO` (R204). -/
def execRpo (s : State) : Result := s.returnIf (s.flags.taken false 0b11#2)

/-- `RC` (R205). -/
def execRc (s : State) : Result := s.returnIf (s.flags.taken true 0b00#2)

/-- `RZ` (R206). -/
def execRz (s : State) : Result := s.returnIf (s.flags.taken true 0b01#2)

/-- `RM` (R207). -/
def execRm (s : State) : Result := s.returnIf (s.flags.taken true 0b10#2)

/-- `RPE` (R208). -/
def execRpe (s : State) : Result := s.returnIf (s.flags.taken true 0b11#2)

/-! ## Restart -/

/-- `RST n` (R209): a one-byte call of address 8 * n. -/
def execRst (n : BitVec 3) (s : State) : Result := s.tryPush (restartAddr n)

end Sys2Proof.Machine
end

