-- ==== Sys2Proof/Machine/IndexRegister.lean ====
section
/-! DEFINITION. The index register group: loads, increment, decrement (40_index_register.md). -/

namespace Sys2Proof.Machine

/-- A register is written with a stepped value `v`, and Z, S, P from it; the carry is kept (40_index_register.md R115, R116). -/
def State.stepReg (s : State) (r : Reg) (v : Byte) : State := (s.setReg r v).setFlags (s.flags.setZSP v)

/-- `MOV r1,r2` (R110). -/
def execMovRR (dst src : Reg) (s : State) : Result := .next (s.setReg dst (s.reg src))

/-- `MOV r,M` (R111): the address is formed before the register is written. -/
def execMovRM (dst : Reg) (s : State) : Result := .next (s.readM.2.setReg dst s.readM.1)

/-- `MOV M,r` (R112). -/
def execMovMR (src : Reg) (s : State) : Result := .next (s.writeM (s.reg src))

/-- `MVI r` (R113). -/
def execMviR (dst : Reg) (data : Byte) (s : State) : Result := .next (s.setReg dst data)

/-- `MVI M` (R114). -/
def execMviM (data : Byte) (s : State) : Result := .next (s.writeM data)

/-- `INR r` (R115). -/
def execInrR (r : Reg) (s : State) : Result := .next (s.stepReg r (s.reg r + 1))

/-- `DCR r` (R116). -/
def execDcrR (r : Reg) (s : State) : Result := .next (s.stepReg r (s.reg r - 1))

end Sys2Proof.Machine
end

