-- ==== Sys2Proof/Machine/InputOutput.lean ====
section
/-! DEFINITION. The input/output group (43_input_output.md). No flag is written (decision D13, log entry 18). -/

namespace Sys2Proof.Machine

/-- `IN p` (R230). -/
def execInP (port : BitVec 3) (s : State) : Result := .next ((s.portIn port).2.setReg .a (s.portIn port).1)

/-- `OUT p` (R231). -/
def execOutP (port : BitVec 5) (s : State) : Result := .next (s.portOut port (s.reg .a))

end Sys2Proof.Machine
end

