-- ==== Sys2Proof/Machine/MachineGroup.lean ====
section
/-! DEFINITION. The machine group, `HLT` in its two encodings (44_machine.md), and the six undefined first bytes (30_encoding.md R95). -/

namespace Sys2Proof.Machine

/-- `HLT`, first bytes 00H and 01H (R240). -/
def execHlt (s : State) : Result := .next (s.setRun .stopped)

/-- `HLT`, first byte FFH (R241). -/
def execHltFF (s : State) : Result := .next (s.setRun .stopped)

/-- The model has no step for an undefined first byte (30_encoding.md R95, decision D12, log entry 19). -/
def State.undefinedOpcode (_ : State) (op : Byte) : Result := .refused (.undefinedOpcode op)

/-- The first byte 22H: `refuse UndefinedOpcode` (30_encoding.md R95). -/
def execUndef22 (s : State) : Result := s.undefinedOpcode 0x22

/-- The first byte 2AH: `refuse UndefinedOpcode` (30_encoding.md R95). -/
def execUndef2A (s : State) : Result := s.undefinedOpcode 0x2A

/-- The first byte 32H: `refuse UndefinedOpcode` (30_encoding.md R95). -/
def execUndef32 (s : State) : Result := s.undefinedOpcode 0x32

/-- The first byte 3AH: `refuse UndefinedOpcode` (30_encoding.md R95). -/
def execUndef3A (s : State) : Result := s.undefinedOpcode 0x3A

/-- The first byte 38H: `refuse UndefinedOpcode` (30_encoding.md R95). -/
def execUndef38 (s : State) : Result := s.undefinedOpcode 0x38

/-- The first byte 39H: `refuse UndefinedOpcode` (30_encoding.md R95). -/
def execUndef39 (s : State) : Result := s.undefinedOpcode 0x39

end Sys2Proof.Machine
end

