-- ==== Sys2Proof/Machine/Dispatch.lean ====
section
/-! DEFINITION. One arm for each instruction. -/

namespace Sys2Proof.Machine

-- What an instruction does, from the state in which `pc` has passed all its bytes (00_scope.md R9, R12).
def exec (i : Instr) (s : State) : Host.Outcome State Fault Refusal :=
  match i with
  | .movRR dst src => Sys2Proof.Machine.execMovRR dst src s
  | .movRM dst => Sys2Proof.Machine.execMovRM dst s
  | .movMR src => Sys2Proof.Machine.execMovMR src s
  | .mviR dst data => Sys2Proof.Machine.execMviR dst data s
  | .mviM data => Sys2Proof.Machine.execMviM data s
  | .inrR r => Sys2Proof.Machine.execInrR r s
  | .dcrR r => Sys2Proof.Machine.execDcrR r s
  | .addR src => Sys2Proof.Machine.execAddR src s
  | .addM => Sys2Proof.Machine.execAddM s
  | .adi data => Sys2Proof.Machine.execAdi data s
  | .adcR src => Sys2Proof.Machine.execAdcR src s
  | .adcM => Sys2Proof.Machine.execAdcM s
  | .aci data => Sys2Proof.Machine.execAci data s
  | .subR src => Sys2Proof.Machine.execSubR src s
  | .subM => Sys2Proof.Machine.execSubM s
  | .sui data => Sys2Proof.Machine.execSui data s
  | .sbbR src => Sys2Proof.Machine.execSbbR src s
  | .sbbM => Sys2Proof.Machine.execSbbM s
  | .sbi data => Sys2Proof.Machine.execSbi data s
  | .anaR src => Sys2Proof.Machine.execAnaR src s
  | .anaM => Sys2Proof.Machine.execAnaM s
  | .ani data => Sys2Proof.Machine.execAni data s
  | .xraR src => Sys2Proof.Machine.execXraR src s
  | .xraM => Sys2Proof.Machine.execXraM s
  | .xri data => Sys2Proof.Machine.execXri data s
  | .oraR src => Sys2Proof.Machine.execOraR src s
  | .oraM => Sys2Proof.Machine.execOraM s
  | .ori data => Sys2Proof.Machine.execOri data s
  | .cmpR src => Sys2Proof.Machine.execCmpR src s
  | .cmpM => Sys2Proof.Machine.execCmpM s
  | .cpi data => Sys2Proof.Machine.execCpi data s
  | .rlc => Sys2Proof.Machine.execRlc s
  | .rrc => Sys2Proof.Machine.execRrc s
  | .ral => Sys2Proof.Machine.execRal s
  | .rar => Sys2Proof.Machine.execRar s
  | .jmp target => Sys2Proof.Machine.execJmp target s
  | .jnc target => Sys2Proof.Machine.execJnc target s
  | .jnz target => Sys2Proof.Machine.execJnz target s
  | .jp target => Sys2Proof.Machine.execJp target s
  | .jpo target => Sys2Proof.Machine.execJpo target s
  | .jc target => Sys2Proof.Machine.execJc target s
  | .jz target => Sys2Proof.Machine.execJz target s
  | .jm target => Sys2Proof.Machine.execJm target s
  | .jpe target => Sys2Proof.Machine.execJpe target s
  | .call target => Sys2Proof.Machine.execCall target s
  | .cnc target => Sys2Proof.Machine.execCnc target s
  | .cnz target => Sys2Proof.Machine.execCnz target s
  | .cp target => Sys2Proof.Machine.execCp target s
  | .cpo target => Sys2Proof.Machine.execCpo target s
  | .cc target => Sys2Proof.Machine.execCc target s
  | .cz target => Sys2Proof.Machine.execCz target s
  | .cm target => Sys2Proof.Machine.execCm target s
  | .cpe target => Sys2Proof.Machine.execCpe target s
  | .ret => Sys2Proof.Machine.execRet s
  | .rnc => Sys2Proof.Machine.execRnc s
  | .rnz => Sys2Proof.Machine.execRnz s
  | .rp => Sys2Proof.Machine.execRp s
  | .rpo => Sys2Proof.Machine.execRpo s
  | .rc => Sys2Proof.Machine.execRc s
  | .rz => Sys2Proof.Machine.execRz s
  | .rm => Sys2Proof.Machine.execRm s
  | .rpe => Sys2Proof.Machine.execRpe s
  | .rst n => Sys2Proof.Machine.execRst n s
  | .inP port => Sys2Proof.Machine.execInP port s
  | .outP port => Sys2Proof.Machine.execOutP port s
  | .hlt => Sys2Proof.Machine.execHlt s
  | .hltFF => Sys2Proof.Machine.execHltFF s
  | .undef22 => Sys2Proof.Machine.execUndef22 s
  | .undef2A => Sys2Proof.Machine.execUndef2A s
  | .undef32 => Sys2Proof.Machine.execUndef32 s
  | .undef3A => Sys2Proof.Machine.execUndef3A s
  | .undef38 => Sys2Proof.Machine.execUndef38 s
  | .undef39 => Sys2Proof.Machine.execUndef39 s

end Sys2Proof.Machine
end

