-- ==== Sys2Proof/Machine/Step.lean ====
section
/-! DEFINITION. One step of the machine, and the placing of an instruction where the next step fetches it. -/

namespace Sys2Proof.Machine

/-- One step (00_scope.md R12): the next instruction is fetched, or supplied by the interrupt, and executed whole; then the
environment's action on INT during the step lands. In STOPPED with no interrupt pending the CPU does nothing, and only the
environment acts (44_machine.md R242). -/
def step (s : State) : Host.Outcome State Fault Refusal :=
  match s.nextInstr with
  | none => .next s.pollInt
  | some (i, t) => endStep (exec i t)

/-- The instruction of `nbits` bits `w` at `pc` and what the next step needs to fetch it: RUNNING, and no interrupt pending
(log entry 7). -/
def State.withFetchWord (s : State) (nbits w : Nat) : State :=
  { s.placeBytes s.pc (bytesOfWord nbits w) with run := .running, intreq := false }

end Sys2Proof.Machine
end

