-- ==== Sys2Proof/Safety.lean ====
section
/-! DEFINITION. The terms claims are stated in: what a state keeps of an earlier one, the groups of the instruction table, runs, and
what every reachable state has. -/

namespace Sys2Proof.Machine

/-! ## What stays the same from `s` to `t` -/

/-- Every general register is unchanged. -/
def SameRegs (s t : State) : Prop := ∀ r : Reg, t.reg r = s.reg r

/-- Every general register but `dst` is unchanged. -/
def SameRegsBut (dst : Reg) (s t : State) : Prop := ∀ r : Reg, r ≠ dst → t.reg r = s.reg r

/-- All four flags are unchanged. -/
def SameFlags (s t : State) : Prop := t.flags = s.flags

/-- The stack pointer, the depth and all eight entries of the address stack are unchanged, the program counter among them. -/
def SameStack (s t : State) : Prop := t.sp = s.sp ∧ t.depth = s.depth ∧ ∀ k : BitVec 3, t.entry k = s.entry k

/-- The stack pointer and the depth are unchanged, and every entry but the program counter's. -/
def SameStackButPc (s t : State) : Prop := t.sp = s.sp ∧ t.depth = s.depth ∧ ∀ k : BitVec 3, k ≠ s.sp → t.entry k = s.entry k

/-- The run state and the pending interrupt are unchanged. -/
def SameRunState (s t : State) : Prop := t.run = s.run ∧ t.intreq = s.intreq

/-- Every byte of memory and the memory map are unchanged. -/
def SameMemory (s t : State) : Prop := (∀ a : Addr, t.byteAt a = s.byteAt a) ∧ t.memMap = s.memMap

/-- The input streams and the output history are unchanged. -/
def SamePorts (s t : State) : Prop := t.inputs = s.inputs ∧ t.outputs = s.outputs

/-- The interrupting device's byte and schedule are unchanged. -/
def SameInterruptSource (s t : State) : Prop := t.intByte = s.intByte ∧ t.intSource = s.intSource

/-- The platform's stack policy is unchanged. -/
def SamePolicy (s t : State) : Prop := t.stackPolicy = s.stackPolicy

/-- No free value was drawn. -/
def SameDraws (s t : State) : Prop := t.draws = s.draws

/-- Everything but the general registers, the flags and the count of draws is unchanged. -/
def SameOutsideAlu (s t : State) : Prop :=
  SameStack s t ∧ SameRunState s t ∧ SameMemory s t ∧ SamePorts s t ∧ SameInterruptSource s t ∧ SamePolicy s t

/-- Everything but the address stack is unchanged. -/
def SameOutsideStack (s t : State) : Prop :=
  SameRegs s t ∧ SameFlags s t ∧ SameRunState s t ∧ SameMemory s t ∧ SamePorts s t ∧ SameInterruptSource s t ∧ SamePolicy s t ∧
    SameDraws s t

/-! ## Shapes of results -/

/-- `t` is `s` with the value `v` and the carry `carry` as an accumulator-group result: A holds `v`, the carry flag `carry`, the
zero, sign and parity flags are those of `v` (10_state.md R25), and nothing else but the count of draws differs. -/
def AluOutcome (s t : State) (v : Byte) (carry : Bool) : Prop :=
  t.reg .a = v ∧ SameRegsBut .a s t ∧ t.flags.cy = carry ∧ (t.flags.z = true ↔ v = 0) ∧ t.flags.s = v.msb
    ∧ (t.flags.p = true ↔ onesCount v % 2 = 0) ∧ SameOutsideAlu s t

/-- `t` is `s` after a compare with the operand `v`: A and every register kept, carry set exactly when A is below `v`, zero
exactly when they are equal, sign and parity those of the difference. -/
def CompareOutcome (s t : State) (v : Byte) : Prop :=
  SameRegs s t ∧ (t.flags.cy = true ↔ (s.reg .a).toNat < v.toNat) ∧ (t.flags.z = true ↔ s.reg .a = v)
    ∧ t.flags.s = (s.reg .a - v).msb ∧ (t.flags.p = true ↔ onesCount (s.reg .a - v) % 2 = 0) ∧ SameOutsideAlu s t

/-- `v` is what the memory operand M of `s` reads as, and `n` free values have been drawn after it: the byte memory holds at
`MAddr()`, or at an absent address the next free value (20_memory.md R55). -/
def OperandM (s : State) (v : Byte) (n : Nat) : Prop :=
  (s.kindAt s.mAddr ≠ .absent ∧ v = s.byteAt s.mAddr ∧ n = s.draws)
    ∨ (s.kindAt s.mAddr = .absent ∧ v = Config.freeByte s.draws ∧ n = s.draws + 1)

/-- `t` is `s` after a jump to `target` when `taken`, else after nothing: only the program counter may differ. -/
def JumpOutcome (s t : State) (taken : Bool) (target : Addr) : Prop :=
  t.pc = (if taken then target else s.pc) ∧ SameStackButPc s t ∧ SameOutsideStack s t

/-- The platform's stack policy refuses a push here: `fault`, at depth 7 (10_state.md R32). -/
def State.PushRefused (s : State) : Prop := s.stackPolicy = .fault ∧ s.depth = 7

/-- The platform's stack policy refuses a pop here: `fault`, at depth 0 (10_state.md R32). -/
def State.PopRefused (s : State) : Prop := s.stackPolicy = .fault ∧ s.depth = 0

/-- Whether an instruction pushes under the flags `f`: `CALL`, `RST`, and a conditional call whose condition holds
(30_encoding.md R88, 42_pc_stack_control.md R191 to R199, R209; the pairing of mnemonics is decision D18, log entry 25). -/
def pushes (f : Flags) : Instr → Bool
  | .call _ | .rst _ => true
  | .cnc _ => !f.cy
  | .cnz _ => !f.z
  | .cp _ => !f.s
  | .cpo _ => !f.p
  | .cc _ => f.cy
  | .cz _ => f.z
  | .cm _ => f.s
  | .cpe _ => f.p
  | .movRR _ _ | .movRM _ | .movMR _ | .mviR _ _ | .mviM _ | .inrR _ | .dcrR _ => false
  | .addR _ | .addM | .adi _ | .adcR _ | .adcM | .aci _ | .subR _ | .subM | .sui _ | .sbbR _ | .sbbM | .sbi _ => false
  | .anaR _ | .anaM | .ani _ | .xraR _ | .xraM | .xri _ | .oraR _ | .oraM | .ori _ | .cmpR _ | .cmpM | .cpi _ => false
  | .rlc | .rrc | .ral | .rar => false
  | .jmp _ | .jnc _ | .jnz _ | .jp _ | .jpo _ | .jc _ | .jz _ | .jm _ | .jpe _ => false
  | .ret | .rnc | .rnz | .rp | .rpo | .rc | .rz | .rm | .rpe => false
  | .inP _ | .outP _ | .hlt | .hltFF => false
  | .undef22 | .undef2A | .undef32 | .undef3A | .undef38 | .undef39 => false

/-- Whether an instruction pops under the flags `f`: `RET`, and a conditional return whose condition holds
(30_encoding.md R88, 42_pc_stack_control.md R200 to R208; the pairing of mnemonics is decision D18, log entry 25). -/
def pops (f : Flags) : Instr → Bool
  | .ret => true
  | .rnc => !f.cy
  | .rnz => !f.z
  | .rp => !f.s
  | .rpo => !f.p
  | .rc => f.cy
  | .rz => f.z
  | .rm => f.s
  | .rpe => f.p
  | .movRR _ _ | .movRM _ | .movMR _ | .mviR _ _ | .mviM _ | .inrR _ | .dcrR _ => false
  | .addR _ | .addM | .adi _ | .adcR _ | .adcM | .aci _ | .subR _ | .subM | .sui _ | .sbbR _ | .sbbM | .sbi _ => false
  | .anaR _ | .anaM | .ani _ | .xraR _ | .xraM | .xri _ | .oraR _ | .oraM | .ori _ | .cmpR _ | .cmpM | .cpi _ => false
  | .rlc | .rrc | .ral | .rar => false
  | .jmp _ | .jnc _ | .jnz _ | .jp _ | .jpo _ | .jc _ | .jz _ | .jm _ | .jpe _ => false
  | .call _ | .cnc _ | .cnz _ | .cp _ | .cpo _ | .cc _ | .cz _ | .cm _ | .cpe _ | .rst _ => false
  | .inP _ | .outP _ | .hlt | .hltFF => false
  | .undef22 | .undef2A | .undef32 | .undef3A | .undef38 | .undef39 => false

/-- The next step runs an instruction that pushes under the state's flags. -/
def State.NextPushes (s : State) : Prop := ∃ i t, s.nextInstr = some (i, t) ∧ pushes s.flags i = true

/-- The next step runs an instruction that pops under the state's flags. -/
def State.NextPops (s : State) : Prop := ∃ i t, s.nextInstr = some (i, t) ∧ pops s.flags i = true

/-- `t` is `s` after a call of `target` when `taken`: the stack pointer and the depth one up, `target` in the entry it names, and every other
entry kept, the return address `s.pc` in the old one among them. When not taken, nothing differs. -/
def CallOutcome (s t : State) (taken : Bool) (target : Addr) : Prop :=
  (if taken then t.sp = s.sp + 1 ∧ t.depth = s.depth + 1 ∧ t.pc = target ∧ t.entry s.sp = s.pc ∧
      ∀ k : BitVec 3, k ≠ s.sp + 1 → t.entry k = s.entry k
    else SameStack s t) ∧ SameOutsideStack s t

/-- `t` is `s` after a return when `taken`: the stack pointer and the depth one down, the entry it names exposed as the program counter, and
every entry kept, the abandoned one among them. When not taken, nothing differs. -/
def ReturnOutcome (s t : State) (taken : Bool) : Prop :=
  (if taken then t.sp = s.sp - 1 ∧ t.depth = s.depth - 1 ∧ t.pc = s.entry (s.sp - 1) ∧ ∀ k : BitVec 3, t.entry k = s.entry k
    else SameStack s t)
    ∧ SameOutsideStack s t

/-! ## Instructions in memory -/

/-- The bytes stand at successive addresses from `a` on, modulo 2^14, none of them absent. -/
def State.BytesAt (s : State) (a : Addr) (bytes : List Byte) : Prop :=
  ∀ k (h : k < bytes.length),
    s.kindAt (a + BitVec.ofNat 14 k) ≠ .absent ∧ s.byteAt (a + BitVec.ofNat 14 k) = bytes[k]

/-- The machine is RUNNING with no interrupt pending, and the bytes stand at `pc`. -/
def State.AtInstr (s : State) (bytes : List Byte) : Prop :=
  s.run = .running ∧ s.intreq = false ∧ s.BytesAt s.pc bytes

/-- Wherever the bytes stand at `pc`, the step runs the instruction `i` with `pc` past them. -/
def EncodedAs (bytes : List Byte) (i : Instr) : Prop :=
  ∀ s : State, s.AtInstr bytes → step s = endStep (exec i (s.setPc (s.pc + BitVec.ofNat 14 bytes.length)))

/-! ## Groups of the instruction table -/

/-- The groups the table's flag and register rules speak of (10_state.md R22, R26). -/
inductive Group where
  | load
  | step
  | alu
  | rotate
  | control
  | input
  | output
  | halt
  | undefined
deriving DecidableEq, Repr

/-- The group of each instruction. -/
def groupOf : Instr → Group
  | .movRR _ _ | .movRM _ | .movMR _ | .mviR _ _ | .mviM _ => .load
  | .inrR _ | .dcrR _ => .step
  | .addR _ | .addM | .adi _ | .adcR _ | .adcM | .aci _ => .alu
  | .subR _ | .subM | .sui _ | .sbbR _ | .sbbM | .sbi _ => .alu
  | .anaR _ | .anaM | .ani _ | .xraR _ | .xraM | .xri _ | .oraR _ | .oraM | .ori _ => .alu
  | .cmpR _ | .cmpM | .cpi _ => .alu
  | .rlc | .rrc | .ral | .rar => .rotate
  | .jmp _ | .jnc _ | .jnz _ | .jp _ | .jpo _ | .jc _ | .jz _ | .jm _ | .jpe _ => .control
  | .call _ | .cnc _ | .cnz _ | .cp _ | .cpo _ | .cc _ | .cz _ | .cm _ | .cpe _ => .control
  | .ret | .rnc | .rnz | .rp | .rpo | .rc | .rz | .rm | .rpe | .rst _ => .control
  | .inP _ => .input
  | .outP _ => .output
  | .hlt | .hltFF => .halt
  | .undef22 | .undef2A | .undef32 | .undef3A | .undef38 | .undef39 => .undefined

/-- The six first bytes that are no instruction (30_encoding.md R95). -/
def undefinedBytes : List Byte := [0x22, 0x2A, 0x32, 0x3A, 0x38, 0x39]

/-! ## Runs -/

/-- The instructions of a list executed one after another, stopping at the first stop. -/
def execAll : List Instr → State → Result
  | [], s => .next s
  | i :: rest, s =>
    match exec i s with
    | .next t => execAll rest t
    | .fault r => .fault r
    | .refused r => .refused r

/-- `n` steps, stopping at the first stop. -/
def stepN : Nat → State → Result
  | 0, s => .next s
  | n + 1, s =>
    match step s with
    | .next t => stepN n t
    | .fault r => .fault r
    | .refused r => .refused r

/-- A run of `n` steps is safe when it meets no undefined first byte (30_encoding.md R95) and no push or pop that the platform's stack
policy refuses (10_state.md R32): it ends in a next state. -/
def SafeRun (n : Nat) (s : State) : Prop := ∃ t, stepN n s = .next t

/-! ## What every reachable state has -/

/-- The first byte of the instruction the next step runs: the device's when an interrupt is pending, else the one `Fetch()`
gives when RUNNING, else none. -/
def State.firstByte (s : State) : Option Byte :=
  if s.intreq then some s.intByte else if s.run = .running then some (s.memRead s.pc).1 else none

/-- The invariant of every run: memory keeps its canonical form, which is the model's own (log entry 2), the output history names only
ports 8 to 31 (20_memory.md R53), and where the stack policy is `fault` the depth stays 0 to 7 (10_state.md R32). -/
def State.Inv (s : State) : Prop :=
  s.mem.wf ∧ (∀ e ∈ s.outputs, 8 ≤ e.port.toNat) ∧ (s.stackPolicy = .fault → 0 ≤ s.depth ∧ s.depth ≤ 7)

end Sys2Proof.Machine
end

