-- ==== Sys2Proof/Certificates/Slice0/Obligations.lean ====
section
/-! DEFINITION. The statements for the provers. A docstring names the rules a statement formalises. Where a statement rests on one
of the spec's own decisions (D numbers of 92_eei_decisions.md) or on a choice of the model, its docstring says so and names the log
entry. -/

open Sys2Proof Sys2Proof.Machine

/-! ## Encoding -/

/-- 10_state.md R21: the code of each register, and 111 names none (the code of B is one the spec recovers by inference). -/
def Obligations.RegisterCodesFollowTheTable : Prop :=
  Reg.ofCode 0b000#3 = some .a ∧ Reg.ofCode 0b001#3 = some .b ∧ Reg.ofCode 0b010#3 = some .c ∧ Reg.ofCode 0b011#3 = some .d ∧
  Reg.ofCode 0b100#3 = some .e ∧ Reg.ofCode 0b101#3 = some .h ∧ Reg.ofCode 0b110#3 = some .l ∧ Reg.ofCode 0b111#3 = none ∧
  ∀ (r : Reg) (code : BitVec 3), Reg.ofCode code = some r ↔ r.code = code

/-- 30_encoding.md R87, R88, R90 to R93, R95: words of every family written out bit by bit, and then every pattern of the four
tables with every value of its fields: the moves, immediates and steps, the arithmetic and logical forms (`10 PPP SSS`,
`00 PPP 100`), the rotates, the transfers (`XXX`, `T C4C3`, and every third byte), the restarts, the ports, the three halts and the six
undefined bytes. The spec recovers by inference, from damaged cells, the `ADC` field 001 (R87), the first two bits of `DCR` and of `RRC`
and the middle field of `MVI M` (R90), the code of B (R21), and the mnemonics of the conditional jumps and returns (R88, whose pairing is
decision D18, log entry 25); the undefined bytes are decision D12 (log entry 19). -/
def Obligations.EncodingTablesDecode : Prop :=
  (decode [0b11000001] = .ok (.movRR .a .b, []) ∧ decode [0b11010111] = .ok (.movRM .c, []) ∧
  decode [0b11111000] = .ok (.movMR .a, []) ∧ decode [0b00110110, 0xF0] = .ok (.mviR .l 0xF0, []) ∧
  decode [0b00001000] = .ok (.inrR .b, []) ∧ decode [0b10001001] = .ok (.adcR .b, []) ∧
  decode [0b00111100, 0x02] = .ok (.cpi 0x02, []) ∧ decode [0b00011010] = .ok (.rar, []) ∧
  decode [0b01000100, 0x34, 0x12] = .ok (.jmp 0x1234, []) ∧ decode [0b01101010, 0x40, 0x00] = .ok (.cz 0x0040, []) ∧
  decode [0b00001011] = .ok (.rnz, []) ∧ decode [0b00101101] = .ok (.rst 5, []) ∧ decode [0b01001001] = .ok (.inP 4, []) ∧
  decode [0b01010101] = .ok (.outP 10, []) ∧ decode [0b00000001] = .ok (.hlt, []) ∧ decode [0b11111111] = .ok (.hltFF, []) ∧
  decode [0b00111000] = .ok (.undef38, []) ∧ decode [0b00111110, 0x99] = .ok (.mviM 0x99, []) ∧
  decode [0b00000010] = .ok (.rlc, []) ∧ decode [0b00001010] = .ok (.rrc, []) ∧ decode [0b00010010] = .ok (.ral, [])) ∧
  (∀ dst src : Reg, decode [opByte 0b11#2 dst.code src.code] = .ok (.movRR dst src, [])) ∧
  (∀ r : Reg, decode [opByte 0b11#2 r.code 0b111#3] = .ok (.movRM r, []) ∧ decode [opByte 0b11#2 0b111#3 r.code] = .ok (.movMR r, [])) ∧
  (∀ (r : Reg) (v : Byte), decode [opByte 0b00#2 r.code 0b110#3, v] = .ok (.mviR r v, []) ∧
    decode [opByte 0b00#2 0b111#3 0b110#3, v] = .ok (.mviM v, [])) ∧
  (∀ r : Reg, r ≠ .a → decode [opByte 0b00#2 r.code 0b000#3] = .ok (.inrR r, []) ∧
    decode [opByte 0b00#2 r.code 0b001#3] = .ok (.dcrR r, [])) ∧
  (∀ r : Reg, decode [opByte 0b10#2 0b000#3 r.code] = .ok (.addR r, []) ∧ decode [opByte 0b10#2 0b001#3 r.code] = .ok (.adcR r, []) ∧
    decode [opByte 0b10#2 0b010#3 r.code] = .ok (.subR r, []) ∧ decode [opByte 0b10#2 0b011#3 r.code] = .ok (.sbbR r, []) ∧
    decode [opByte 0b10#2 0b100#3 r.code] = .ok (.anaR r, []) ∧ decode [opByte 0b10#2 0b101#3 r.code] = .ok (.xraR r, []) ∧
    decode [opByte 0b10#2 0b110#3 r.code] = .ok (.oraR r, []) ∧ decode [opByte 0b10#2 0b111#3 r.code] = .ok (.cmpR r, [])) ∧
  (decode [opByte 0b10#2 0b000#3 0b111#3] = .ok (.addM, []) ∧ decode [opByte 0b10#2 0b001#3 0b111#3] = .ok (.adcM, []) ∧
    decode [opByte 0b10#2 0b010#3 0b111#3] = .ok (.subM, []) ∧ decode [opByte 0b10#2 0b011#3 0b111#3] = .ok (.sbbM, []) ∧
    decode [opByte 0b10#2 0b100#3 0b111#3] = .ok (.anaM, []) ∧ decode [opByte 0b10#2 0b101#3 0b111#3] = .ok (.xraM, []) ∧
    decode [opByte 0b10#2 0b110#3 0b111#3] = .ok (.oraM, []) ∧ decode [opByte 0b10#2 0b111#3 0b111#3] = .ok (.cmpM, [])) ∧
  (∀ v : Byte, decode [opByte 0b00#2 0b000#3 0b100#3, v] = .ok (.adi v, []) ∧ decode [opByte 0b00#2 0b001#3 0b100#3, v] = .ok (.aci v, []) ∧
    decode [opByte 0b00#2 0b010#3 0b100#3, v] = .ok (.sui v, []) ∧ decode [opByte 0b00#2 0b011#3 0b100#3, v] = .ok (.sbi v, []) ∧
    decode [opByte 0b00#2 0b100#3 0b100#3, v] = .ok (.ani v, []) ∧ decode [opByte 0b00#2 0b101#3 0b100#3, v] = .ok (.xri v, []) ∧
    decode [opByte 0b00#2 0b110#3 0b100#3, v] = .ok (.ori v, []) ∧ decode [opByte 0b00#2 0b111#3 0b100#3, v] = .ok (.cpi v, [])) ∧
  (decode [opByte 0b00#2 0b000#3 0b010#3] = .ok (.rlc, []) ∧ decode [opByte 0b00#2 0b001#3 0b010#3] = .ok (.rrc, []) ∧
    decode [opByte 0b00#2 0b010#3 0b010#3] = .ok (.ral, []) ∧ decode [opByte 0b00#2 0b011#3 0b010#3] = .ok (.rar, [])) ∧
  (∀ (x : BitVec 3) (b2 b3 : Byte) (t : Addr), t.toNat = (b3.toNat % 64) * 256 + b2.toNat →
    decode [opByte 0b01#2 x 0b100#3, b2, b3] = .ok (.jmp t, []) ∧ decode [opByte 0b01#2 x 0b110#3, b2, b3] = .ok (.call t, []) ∧
    decode [opByte 0b00#2 x 0b111#3] = .ok (.ret, [])) ∧
  (∀ (b2 b3 : Byte) (t : Addr), t.toNat = (b3.toNat % 64) * 256 + b2.toNat →
    decode [opByte 0b01#2 0b000#3 0b000#3, b2, b3] = .ok (.jnc t, []) ∧ decode [opByte 0b01#2 0b001#3 0b000#3, b2, b3] = .ok (.jnz t, []) ∧
    decode [opByte 0b01#2 0b010#3 0b000#3, b2, b3] = .ok (.jp t, []) ∧ decode [opByte 0b01#2 0b011#3 0b000#3, b2, b3] = .ok (.jpo t, []) ∧
    decode [opByte 0b01#2 0b100#3 0b000#3, b2, b3] = .ok (.jc t, []) ∧ decode [opByte 0b01#2 0b101#3 0b000#3, b2, b3] = .ok (.jz t, []) ∧
    decode [opByte 0b01#2 0b110#3 0b000#3, b2, b3] = .ok (.jm t, []) ∧ decode [opByte 0b01#2 0b111#3 0b000#3, b2, b3] = .ok (.jpe t, []) ∧
    decode [opByte 0b01#2 0b000#3 0b010#3, b2, b3] = .ok (.cnc t, []) ∧ decode [opByte 0b01#2 0b001#3 0b010#3, b2, b3] = .ok (.cnz t, []) ∧
    decode [opByte 0b01#2 0b010#3 0b010#3, b2, b3] = .ok (.cp t, []) ∧ decode [opByte 0b01#2 0b011#3 0b010#3, b2, b3] = .ok (.cpo t, []) ∧
    decode [opByte 0b01#2 0b100#3 0b010#3, b2, b3] = .ok (.cc t, []) ∧ decode [opByte 0b01#2 0b101#3 0b010#3, b2, b3] = .ok (.cz t, []) ∧
    decode [opByte 0b01#2 0b110#3 0b010#3, b2, b3] = .ok (.cm t, []) ∧ decode [opByte 0b01#2 0b111#3 0b010#3, b2, b3] = .ok (.cpe t, [])) ∧
  (decode [opByte 0b00#2 0b000#3 0b011#3] = .ok (.rnc, []) ∧ decode [opByte 0b00#2 0b001#3 0b011#3] = .ok (.rnz, []) ∧
    decode [opByte 0b00#2 0b010#3 0b011#3] = .ok (.rp, []) ∧ decode [opByte 0b00#2 0b011#3 0b011#3] = .ok (.rpo, []) ∧
    decode [opByte 0b00#2 0b100#3 0b011#3] = .ok (.rc, []) ∧ decode [opByte 0b00#2 0b101#3 0b011#3] = .ok (.rz, []) ∧
    decode [opByte 0b00#2 0b110#3 0b011#3] = .ok (.rm, []) ∧ decode [opByte 0b00#2 0b111#3 0b011#3] = .ok (.rpe, [])) ∧
  (∀ n : BitVec 3, decode [opByte 0b00#2 n 0b101#3] = .ok (.rst n, [])) ∧
  (∀ p : BitVec 3, decode [(0b0100#4 ++ p ++ 0b1#1 : BitVec (4 + 3 + 1))] = .ok (.inP p, [])) ∧
  (∀ p : BitVec 5, 8 ≤ p.toNat → decode [(0b01#2 ++ p ++ 0b1#1 : BitVec (2 + 5 + 1))] = .ok (.outP p, [])) ∧
  (decode [opByte 0b00#2 0b000#3 0b000#3] = .ok (.hlt, []) ∧ decode [opByte 0b00#2 0b000#3 0b001#3] = .ok (.hlt, []) ∧
    decode [opByte 0b11#2 0b111#3 0b111#3] = .ok (.hltFF, [])) ∧
  (decode [opByte 0b00#2 0b111#3 0b000#3] = .ok (.undef38, []) ∧ decode [opByte 0b00#2 0b111#3 0b001#3] = .ok (.undef39, []) ∧
    decode [opByte 0b00#2 0b100#3 0b010#3] = .ok (.undef22, []) ∧ decode [opByte 0b00#2 0b101#3 0b010#3] = .ok (.undef2A, []) ∧
    decode [opByte 0b00#2 0b110#3 0b010#3] = .ok (.undef32, []) ∧ decode [opByte 0b00#2 0b111#3 0b010#3] = .ok (.undef3A, []))

/-- 30_encoding.md R89: the two-byte first bytes are the sixteen of the rule, the three-byte ones the even values 40H to 7EH, and
every other first byte stands alone. -/
def Obligations.LengthFromTheFirstByte : Prop :=
  ∀ op : Byte,
    (instrLength op = 2 ↔ op ∈ ([0x04, 0x0C, 0x14, 0x1C, 0x24, 0x2C, 0x34, 0x3C,
      0x06, 0x0E, 0x16, 0x1E, 0x26, 0x2E, 0x36, 0x3E] : List Byte)) ∧
    (instrLength op = 3 ↔ 0x40 ≤ op.toNat ∧ op.toNat ≤ 0x7E ∧ op.toNat % 2 = 0) ∧
    (instrLength op = 1 ∨ instrLength op = 2 ∨ instrLength op = 3)

/-- 30_encoding.md R95: exactly six first bytes are no instruction (that they have no meaning is decision D12, log entry 19). -/
def Obligations.UndefinedFirstBytesAreSix : Prop :=
  ∀ op b2 b3 : Byte, groupOf (decodeWith op b2 b3) = .undefined ↔ op ∈ undefinedBytes

/-- 30_encoding.md R94: the don't-care bits of `JMP`, `CALL`, `RET`, of the first `HLT`, and bits 7..6 of the third byte of every
three-byte instruction select nothing. -/
def Obligations.DontCareBitsSelectNothing : Prop :=
  (∀ (x : BitVec 3) (b2 b3 : Byte),
    (∃ t : Addr, t.toNat = (b3.toNat % 64) * 256 + b2.toNat ∧
      decodeWith (opByte 0b01#2 x 0b100#3) b2 b3 = .jmp t ∧ decodeWith (opByte 0b01#2 x 0b110#3) b2 b3 = .call t) ∧
    decodeWith (opByte 0b00#2 x 0b111#3) b2 b3 = .ret ∧ decodeWith 0x00 b2 b3 = .hlt ∧ decodeWith 0x01 b2 b3 = .hlt) ∧
  ∀ op b2 b3 b3' : Byte, instrLength op = 3 → b3.toNat % 64 = b3'.toNat % 64 → decode [op, b2, b3] = decode [op, b2, b3']

/-- 30_encoding.md R80 to R96: decoding what the encoder wrote gives the instruction back, whatever follows it. -/
def Obligations.DecodeAfterEncode : Prop :=
  ∀ (i : Instr) (rest : List Byte), i.wellFormed = true → decode (encode i ++ rest) = .ok (i, rest)

/-- 30_encoding.md R96, R101: the decoder answers only with operands the table allows. -/
def Obligations.DecodedIsWellFormed : Prop :=
  ∀ (bytes : List Byte) (i : Instr) (rest : List Byte), decode bytes = .ok (i, rest) → i.wellFormed = true

/-- 30_encoding.md R80, R89: an instruction takes the bytes its first byte asks for and leaves the others. -/
def Obligations.DecodeTakesWholeInstructions : Prop :=
  ∀ (bytes : List Byte) (i : Instr) (rest : List Byte), decode bytes = .ok (i, rest) →
    ∃ op tail, bytes = op :: tail ++ rest ∧ instrLength op = tail.length + 1 ∧ decode (op :: tail) = .ok (i, [])

/-- 30_encoding.md R90 to R94: two first bytes select one instruction only by their don't-care bits. -/
def Obligations.FirstBytesShareNoInstruction : Prop :=
  ∀ op op' b2 b2' b3 b3' : Byte, decodeWith op b2 b3 = decodeWith op' b2' b3' →
    op = op' ∨ (op &&& 0xFE = 0 ∧ op' &&& 0xFE = 0)
      ∨ (op &&& 0xC7 = op' &&& 0xC7 ∧ (op &&& 0xC7 = 0x44 ∨ op &&& 0xC7 = 0x46 ∨ op &&& 0xC7 = 0x07))

/-! ## Index register group -/

/-- 40_index_register.md R110. -/
def Obligations.MovRegisterCopiesTheSource : Prop :=
  ∀ dst src : Reg,
    EncodedAs [opByte 0b11#2 dst.code src.code] (.movRR dst src) ∧
    ∀ s : State, ∃ t, exec (.movRR dst src) s = .next t ∧ t.reg dst = s.reg src ∧ SameRegsBut dst s t ∧
      SameFlags s t ∧ SameOutsideAlu s t ∧ SameDraws s t

/-- 40_index_register.md R111: `MOV r,M` loads what M reads as, from the address formed before the write
(`MAddr` is decision D1, log entry 12; an absent address is decision D16, log entry 4). -/
def Obligations.MovFromMemoryLoadsM : Prop :=
  ∀ (s : State) (dst : Reg) (v : Byte) (n : Nat), OperandM s v n →
    ∃ t, exec (.movRM dst) s = .next t ∧ t.reg dst = v ∧ SameRegsBut dst s t ∧ SameFlags s t ∧ SameOutsideAlu s t ∧
      t.draws = n

/-- 40_index_register.md R112, R114, 20_memory.md R55: the stores write the byte at `MAddr()` when RAM stands there, and change
nothing else; ROM and an absent address keep what they hold (decisions D1 and D16, log entries 3 and 12). -/
def Obligations.StoresWriteOnlyM : Prop :=
  ∀ (s : State) (i : Instr) (v : Byte), (i = .mviM v ∨ ∃ src, i = .movMR src ∧ v = s.reg src) →
    ∃ t, exec i s = .next t ∧
      (∀ a : Addr, t.byteAt a = if s.kindAt s.mAddr = .ram ∧ a = s.mAddr then v else s.byteAt a) ∧
      t.memMap = s.memMap ∧ SameRegs s t ∧ SameFlags s t ∧ SameStack s t ∧ SameRunState s t ∧ SamePorts s t ∧
      SameInterruptSource s t ∧ SamePolicy s t ∧ SameDraws s t

/-- 10_state.md R24: the memory pointer is H[5:0] : L (decision D1, log entry 12). -/
def Obligations.MemoryPointerIsHAndL : Prop :=
  ∀ s : State, s.mAddr.toNat = ((s.reg .h).toNat % 64) * 256 + (s.reg .l).toNat

/-- 40_index_register.md R113. -/
def Obligations.MviLoadsTheImmediate : Prop :=
  ∀ (dst : Reg) (data : Byte),
    EncodedAs [opByte 0b00#2 dst.code 0b110#3, data] (.mviR dst data) ∧
    ∀ s : State, ∃ t, exec (.mviR dst data) s = .next t ∧ t.reg dst = data ∧ SameRegsBut dst s t ∧
      SameFlags s t ∧ SameOutsideAlu s t ∧ SameDraws s t

/-- 40_index_register.md R115. -/
def Obligations.IncrementKeepsTheCarry : Prop :=
  (∀ (s : State) (r : Reg), r ≠ .a →
    ∃ t, exec (.inrR r) s = .next t ∧ (t.reg r).toNat = ((s.reg r).toNat + 1) % 256 ∧ SameRegsBut r s t ∧
      t.flags.cy = s.flags.cy ∧ (t.flags.z = true ↔ t.reg r = 0) ∧ t.flags.s = (t.reg r).msb ∧
      (t.flags.p = true ↔ onesCount (t.reg r) % 2 = 0) ∧ SameOutsideAlu s t ∧ SameDraws s t) ∧
  (∀ r : Reg, r ≠ .a → EncodedAs [opByte 0b00#2 r.code 0b000#3] (.inrR r)) ∧
  EncodedAs [0x00] .hlt ∧ EncodedAs [0x38] .undef38

/-- 40_index_register.md R116 (the first two bits of the encoding are ones 30_encoding.md R90 recovers by inference). -/
def Obligations.DecrementKeepsTheCarry : Prop :=
  (∀ (s : State) (r : Reg), r ≠ .a →
    ∃ t, exec (.dcrR r) s = .next t ∧ (t.reg r).toNat = ((s.reg r).toNat + 255) % 256 ∧ SameRegsBut r s t ∧
      t.flags.cy = s.flags.cy ∧ (t.flags.z = true ↔ t.reg r = 0) ∧ t.flags.s = (t.reg r).msb ∧
      (t.flags.p = true ↔ onesCount (t.reg r) % 2 = 0) ∧ SameOutsideAlu s t ∧ SameDraws s t) ∧
  (∀ r : Reg, r ≠ .a → EncodedAs [opByte 0b00#2 r.code 0b001#3] (.dcrR r)) ∧
  EncodedAs [0x01] .hlt ∧ EncodedAs [0x39] .undef39

/-! ## Accumulator group -/

/-- 10_state.md R27: zero, sign and parity of a result; the carry is kept. -/
def Obligations.ZeroSignAndParityOfAResult : Prop :=
  ∀ (f : Flags) (v : Byte),
    ((f.setZSP v).z = true ↔ v.toNat = 0) ∧ ((f.setZSP v).s = true ↔ 128 ≤ v.toNat) ∧
    ((f.setZSP v).p = true ↔ ((List.range 8).countP (fun k => v.toNat.testBit k)) % 2 = 0) ∧ (f.setZSP v).cy = f.cy

/-- 41_accumulator_group.md R131, R134, R136, R137, R139: the register and immediate additions (that the carry is cleared when
there is none is decision D5, log entry 17). -/
def Obligations.AddRegisterAndImmediate : Prop :=
  ∀ (s : State) (src : Reg) (v : Byte),
    (∃ t, exec (.addR src) s = .next t ∧ SameDraws s t ∧
      AluOutcome s t (BitVec.ofNat 8 ((s.reg .a).toNat + (s.reg src).toNat)) (decide (255 < (s.reg .a).toNat + (s.reg src).toNat))) ∧
    (∃ t, exec (.adi v) s = .next t ∧ SameDraws s t ∧
      AluOutcome s t (BitVec.ofNat 8 ((s.reg .a).toNat + v.toNat)) (decide (255 < (s.reg .a).toNat + v.toNat))) ∧
    (∃ t, exec (.adcR src) s = .next t ∧ SameDraws s t ∧
      AluOutcome s t (BitVec.ofNat 8 ((s.reg .a).toNat + (s.reg src).toNat + s.flags.cy.toNat))
        (decide (255 < (s.reg .a).toNat + (s.reg src).toNat + s.flags.cy.toNat))) ∧
    (∃ t, exec (.aci v) s = .next t ∧ SameDraws s t ∧
      AluOutcome s t (BitVec.ofNat 8 ((s.reg .a).toNat + v.toNat + s.flags.cy.toNat))
        (decide (255 < (s.reg .a).toNat + v.toNat + s.flags.cy.toNat)))

/-- 41_accumulator_group.md R131, R135, R138: the memory additions (decisions D1, D5 and D16, log entries 4, 12 and 17). -/
def Obligations.AddMemory : Prop :=
  ∀ (s : State) (v : Byte) (n : Nat), OperandM s v n →
    (∃ t, exec .addM s = .next t ∧ t.draws = n ∧
      AluOutcome s t (BitVec.ofNat 8 ((s.reg .a).toNat + v.toNat)) (decide (255 < (s.reg .a).toNat + v.toNat))) ∧
    (∃ t, exec .adcM s = .next t ∧ t.draws = n ∧
      AluOutcome s t (BitVec.ofNat 8 ((s.reg .a).toNat + v.toNat + s.flags.cy.toNat))
        (decide (255 < (s.reg .a).toNat + v.toNat + s.flags.cy.toNat)))

/-- 41_accumulator_group.md R132, R140, R142, R143, R145: the register and immediate subtractions; the carry is the borrow
(decision D5, log entry 17). -/
def Obligations.SubtractRegisterAndImmediate : Prop :=
  ∀ (s : State) (src : Reg) (v : Byte),
    (∃ t, exec (.subR src) s = .next t ∧ SameDraws s t ∧
      AluOutcome s t (s.reg .a - s.reg src) (decide ((s.reg .a).toNat < (s.reg src).toNat))) ∧
    (∃ t, exec (.sui v) s = .next t ∧ SameDraws s t ∧
      AluOutcome s t (s.reg .a - v) (decide ((s.reg .a).toNat < v.toNat))) ∧
    (∃ t, exec (.sbbR src) s = .next t ∧ SameDraws s t ∧
      AluOutcome s t (BitVec.ofNat 8 (512 + (s.reg .a).toNat - (s.reg src).toNat - s.flags.cy.toNat))
        (decide ((s.reg .a).toNat < (s.reg src).toNat + s.flags.cy.toNat))) ∧
    (∃ t, exec (.sbi v) s = .next t ∧ SameDraws s t ∧
      AluOutcome s t (BitVec.ofNat 8 (512 + (s.reg .a).toNat - v.toNat - s.flags.cy.toNat))
        (decide ((s.reg .a).toNat < v.toNat + s.flags.cy.toNat)))

/-- 41_accumulator_group.md R132, R141, R144: the memory subtractions (decisions D1, D5 and D16, log entries 4, 12 and 17). -/
def Obligations.SubtractMemory : Prop :=
  ∀ (s : State) (v : Byte) (n : Nat), OperandM s v n →
    (∃ t, exec .subM s = .next t ∧ t.draws = n ∧ AluOutcome s t (s.reg .a - v) (decide ((s.reg .a).toNat < v.toNat))) ∧
    (∃ t, exec .sbbM s = .next t ∧ t.draws = n ∧
      AluOutcome s t (BitVec.ofNat 8 (512 + (s.reg .a).toNat - v.toNat - s.flags.cy.toNat))
        (decide ((s.reg .a).toNat < v.toNat + s.flags.cy.toNat)))

/-- 41_accumulator_group.md R133, R146, R148, R149, R151, R152, R154: the register and immediate logical operations; the carry is
cleared (decision D2, log entry 14). -/
def Obligations.LogicRegisterAndImmediate : Prop :=
  ∀ (s : State) (src : Reg) (v : Byte),
    (∃ t, exec (.anaR src) s = .next t ∧ SameDraws s t ∧ AluOutcome s t (s.reg .a &&& s.reg src) false) ∧
    (∃ t, exec (.ani v) s = .next t ∧ SameDraws s t ∧ AluOutcome s t (s.reg .a &&& v) false) ∧
    (∃ t, exec (.xraR src) s = .next t ∧ SameDraws s t ∧ AluOutcome s t (s.reg .a ^^^ s.reg src) false) ∧
    (∃ t, exec (.xri v) s = .next t ∧ SameDraws s t ∧ AluOutcome s t (s.reg .a ^^^ v) false) ∧
    (∃ t, exec (.oraR src) s = .next t ∧ SameDraws s t ∧ AluOutcome s t (s.reg .a ||| s.reg src) false) ∧
    (∃ t, exec (.ori v) s = .next t ∧ SameDraws s t ∧ AluOutcome s t (s.reg .a ||| v) false)

/-- 41_accumulator_group.md R133, R147, R150, R153: the memory logical operations (decisions D1, D2 and D16, log entries 4, 12
and 14). -/
def Obligations.LogicMemory : Prop :=
  ∀ (s : State) (v : Byte) (n : Nat), OperandM s v n →
    (∃ t, exec .anaM s = .next t ∧ t.draws = n ∧ AluOutcome s t (s.reg .a &&& v) false) ∧
    (∃ t, exec .xraM s = .next t ∧ t.draws = n ∧ AluOutcome s t (s.reg .a ^^^ v) false) ∧
    (∃ t, exec .oraM s = .next t ∧ t.draws = n ∧ AluOutcome s t (s.reg .a ||| v) false)

/-- 41_accumulator_group.md R155, R157: the register and immediate compares order A and the operand and write no register
(decision D3, log entry 15). -/
def Obligations.CompareRegisterAndImmediate : Prop :=
  ∀ (s : State) (src : Reg) (v : Byte),
    (∃ t, exec (.cmpR src) s = .next t ∧ SameDraws s t ∧ CompareOutcome s t (s.reg src)) ∧
    (∃ t, exec (.cpi v) s = .next t ∧ SameDraws s t ∧ CompareOutcome s t v)

/-- 41_accumulator_group.md R156: the memory compare (decisions D1, D3 and D16, log entries 4, 12 and 15). -/
def Obligations.CompareMemory : Prop :=
  ∀ (s : State) (v : Byte) (n : Nat), OperandM s v n →
    ∃ t, exec .cmpM s = .next t ∧ t.draws = n ∧ CompareOutcome s t v

/-- 41_accumulator_group.md R160, R161: the rotates through the carry, bit by bit; zero, sign and parity are kept. -/
def Obligations.RotatesThroughTheCarry : Prop :=
  EncodedAs [0b00010010] .ral ∧ EncodedAs [0b00011010] .rar ∧
  ∀ s : State,
    (∃ t, exec .ral s = .next t ∧ (t.reg .a).getLsbD 0 = s.flags.cy ∧
      (∀ k, k < 7 → (t.reg .a).getLsbD (k + 1) = (s.reg .a).getLsbD k) ∧ t.flags.cy = (s.reg .a).getLsbD 7 ∧
      t.flags.z = s.flags.z ∧ t.flags.s = s.flags.s ∧ t.flags.p = s.flags.p ∧
      SameRegsBut .a s t ∧ SameOutsideAlu s t ∧ SameDraws s t) ∧
    (∃ t, exec .rar s = .next t ∧ (t.reg .a).getLsbD 7 = s.flags.cy ∧
      (∀ k, k < 7 → (t.reg .a).getLsbD k = (s.reg .a).getLsbD (k + 1)) ∧ t.flags.cy = (s.reg .a).getLsbD 0 ∧
      t.flags.z = s.flags.z ∧ t.flags.s = s.flags.s ∧ t.flags.p = s.flags.p ∧
      SameRegsBut .a s t ∧ SameOutsideAlu s t ∧ SameDraws s t)

/-- 41_accumulator_group.md R158, R159: the eight-bit rotates, bit by bit; the carry receives the bit that moves around the end
(decision D4, log entry 16). -/
def Obligations.RotatesAroundTheAccumulator : Prop :=
  ∀ s : State,
    (∃ t, exec .rlc s = .next t ∧ (∀ k, k < 8 → (t.reg .a).getLsbD ((k + 1) % 8) = (s.reg .a).getLsbD k) ∧
      t.flags.cy = (s.reg .a).getLsbD 7 ∧ t.flags.z = s.flags.z ∧ t.flags.s = s.flags.s ∧ t.flags.p = s.flags.p ∧
      SameRegsBut .a s t ∧ SameOutsideAlu s t ∧ SameDraws s t) ∧
    (∃ t, exec .rrc s = .next t ∧ (∀ k, k < 8 → (t.reg .a).getLsbD k = (s.reg .a).getLsbD ((k + 1) % 8)) ∧
      t.flags.cy = (s.reg .a).getLsbD 0 ∧ t.flags.z = s.flags.z ∧ t.flags.s = s.flags.s ∧ t.flags.p = s.flags.p ∧
      SameRegsBut .a s t ∧ SameOutsideAlu s t ∧ SameDraws s t)

/-- 41_accumulator_group.md R160, R161: `RAR` undoes `RAL` and `RAL` undoes `RAR`, in the whole state. -/
def Obligations.RotatesThroughTheCarryAreInverse : Prop :=
  ∀ s : State, execAll [.ral, .rar] s = .next s ∧ execAll [.rar, .ral] s = .next s

/-- 41_accumulator_group.md R160: nine `RAL` restore A and the carry, and the whole state with them. -/
def Obligations.NineRotatesRestoreTheAccumulator : Prop :=
  ∀ s : State, execAll (List.replicate 9 .ral) s = .next s ∧ execAll (List.replicate 9 .rar) s = .next s

/-- 41_accumulator_group.md R131, R132, R162: a carry, or a borrow, chained through the second byte adds, or subtracts, 16-bit
numbers (decision D5, log entry 17). -/
def Obligations.CarryChainsTwoBytes : Prop :=
  ∀ xh xl yh yl : Byte,
    let lo := add8 xl yl false
    let hi := add8 xh yh lo.2
    let dl := sub8 xl yl false
    let dh := sub8 xh yh dl.2
    (hi.2.toNat * 65536 + hi.1.toNat * 256 + lo.1.toNat = (xh.toNat * 256 + xl.toNat) + (yh.toNat * 256 + yl.toNat)) ∧
    ((dh.1.toNat : Int) * 256 + dl.1.toNat - 65536 * dh.2.toNat
      = ((xh.toNat : Int) * 256 + xl.toNat) - ((yh.toNat : Int) * 256 + yl.toNat))

/-! ## Program counter and stack control group -/

/-- 42_pc_stack_control.md R181, R182: the jump, with every don't-care bit of its bytes (that no flag changes is decision D13,
log entry 18). -/
def Obligations.JumpGoesToItsTarget : Prop :=
  (∀ (x : BitVec 3) (b2 b3 : Byte) (t : Addr), t.toNat = (b3.toNat % 64) * 256 + b2.toNat →
    EncodedAs [opByte 0b01#2 x 0b100#3, b2, b3] (.jmp t)) ∧
  ∀ (s : State) (target : Addr), ∃ t, exec (.jmp target) s = .next t ∧ JumpOutcome s t true target

/-- 42_pc_stack_control.md R180, R183 to R190, R211: each conditional jump is taken on its own flag and sense (which mnemonic goes
with which code is decision D18, that no flag changes D13, log entries 18 and 25). -/
def Obligations.ConditionalJumpsTestTheirFlag : Prop :=
  ∀ (s : State) (a : Addr),
    (∃ t, exec (.jnc a) s = .next t ∧ JumpOutcome s t (!s.flags.cy) a) ∧
    (∃ t, exec (.jnz a) s = .next t ∧ JumpOutcome s t (!s.flags.z) a) ∧
    (∃ t, exec (.jp a) s = .next t ∧ JumpOutcome s t (!s.flags.s) a) ∧
    (∃ t, exec (.jpo a) s = .next t ∧ JumpOutcome s t (!s.flags.p) a) ∧
    (∃ t, exec (.jc a) s = .next t ∧ JumpOutcome s t s.flags.cy a) ∧
    (∃ t, exec (.jz a) s = .next t ∧ JumpOutcome s t s.flags.z a) ∧
    (∃ t, exec (.jm a) s = .next t ∧ JumpOutcome s t s.flags.s a) ∧
    (∃ t, exec (.jpe a) s = .next t ∧ JumpOutcome s t s.flags.p a)

/-- 42_pc_stack_control.md R191, 10_state.md R31, R32: the call leaves the return address in the old entry; at depth 7 the stack policy
`fault` refuses it (the stack's pointer and policy are decision D6, that no flag changes D13, log entries 11 and 18). -/
def Obligations.CallSavesTheReturnAddress : Prop :=
  ∀ (s : State) (target : Addr),
    (¬ s.PushRefused → ∃ t, exec (.call target) s = .next t ∧ CallOutcome s t true target) ∧
    (s.PushRefused → exec (.call target) s = .refused .pushAtDepthSeven)

/-- 42_pc_stack_control.md R192 to R199, R211, 10_state.md R32: each conditional call tests its own flag; a taken one at depth 7 is
refused by the stack policy `fault` (decisions D6, D13 and D18, log entries 11, 18 and 25). -/
def Obligations.ConditionalCallsTestTheirFlag : Prop :=
  ∀ (s : State) (a : Addr) (i : Instr) (taken : Bool),
    (i, taken) ∈ ([(.cnc a, !s.flags.cy), (.cnz a, !s.flags.z), (.cp a, !s.flags.s), (.cpo a, !s.flags.p),
        (.cc a, s.flags.cy), (.cz a, s.flags.z), (.cm a, s.flags.s), (.cpe a, s.flags.p)] : List (Instr × Bool)) →
    ((taken = true → ¬ s.PushRefused) → ∃ t, exec i s = .next t ∧ CallOutcome s t taken a) ∧
    (taken = true → s.PushRefused → exec i s = .refused .pushAtDepthSeven)

/-- 42_pc_stack_control.md R200, 10_state.md R31, R32: the return exposes the entry below; at depth 0 the stack policy `fault`
refuses it (decisions D6 and D13, log entries 11 and 18). -/
def Obligations.ReturnExposesTheEntryBelow : Prop :=
  ∀ s : State,
    (¬ s.PopRefused → ∃ t, exec .ret s = .next t ∧ ReturnOutcome s t true) ∧
    (s.PopRefused → exec .ret s = .refused .popAtDepthZero)

/-- 42_pc_stack_control.md R201 to R208, 10_state.md R32: each conditional return tests its own flag; a taken one at depth 0 is
refused by the stack policy `fault` (decisions D6, D13 and D18, log entries 11, 18 and 25). -/
def Obligations.ConditionalReturnsTestTheirFlag : Prop :=
  ∀ (s : State) (i : Instr) (taken : Bool),
    (i, taken) ∈ ([(.rnc, !s.flags.cy), (.rnz, !s.flags.z), (.rp, !s.flags.s), (.rpo, !s.flags.p),
        (.rc, s.flags.cy), (.rz, s.flags.z), (.rm, s.flags.s), (.rpe, s.flags.p)] : List (Instr × Bool)) →
    ((taken = true → ¬ s.PopRefused) → ∃ t, exec i s = .next t ∧ ReturnOutcome s t taken) ∧
    (taken = true → s.PopRefused → exec i s = .refused .popAtDepthZero)

/-- 42_pc_stack_control.md R209, 20_memory.md R54, 10_state.md R32: `RST n` is a call of address 8 * n (decisions D6 and D13, log
entries 11 and 18). -/
def Obligations.RestartCallsEightTimesN : Prop :=
  ∀ (s : State) (n : BitVec 3),
    (¬ s.PushRefused → ∃ t, exec (.rst n) s = .next t ∧ CallOutcome s t true (BitVec.ofNat 14 (8 * n.toNat))) ∧
    (s.PushRefused → exec (.rst n) s = .refused .pushAtDepthSeven)

/-- 10_state.md R32, 42_pc_stack_control.md R191, R200: up to seven nested calls all return to their callers, under the policy
`wrap` from any depth, under `fault` as long as the depth stays 0 to 7 (decision D6, log entry 11). -/
def Obligations.SevenNestedCallsReturn : Prop :=
  ∀ (s : State) (targets : List Addr), targets.length ≤ 7 →
    (s.stackPolicy = .wrap ∨ 0 ≤ s.depth ∧ s.depth + targets.length ≤ 7) →
    ∃ t, execAll (targets.map .call ++ List.replicate targets.length .ret) s = .next t ∧
      t.pc = s.pc ∧ t.sp = s.sp ∧ t.depth = s.depth ∧ SameOutsideStack s t

/-- 10_state.md R32: under the policy `wrap` the eighth nested call overwrites the oldest return address and raises nothing; under
`fault` the eighth from depth 0 is refused (decision D6, log entry 11). -/
def Obligations.EighthNestedCallOverwritesTheOldest : Prop :=
  ∀ (s : State) (targets : List Addr) (last : Addr), targets.length = 7 →
    (s.stackPolicy = .wrap → ∃ t, execAll ((targets ++ [last]).map .call) s = .next t ∧
      t.sp = s.sp ∧ t.depth = s.depth + 8 ∧ t.pc = last ∧ t.entry s.sp = last ∧ SameOutsideStack s t) ∧
    (s.stackPolicy = .fault → s.depth = 0 → execAll ((targets ++ [last]).map .call) s = .refused .pushAtDepthSeven)

/-! ## Input, output, halt, undefined -/

/-- 43_input_output.md R230, R233: `IN p` loads A with the byte the environment gives: the next of the port's stream, or a free
value when the stream is empty (that no flag changes is decision D13, the stream D22, log entries 5 and 18). -/
def Obligations.InputLoadsTheAccumulator : Prop :=
  ∀ (s : State) (p : BitVec 3),
    ∃ t, exec (.inP p) s = .next t ∧ SameRegsBut .a s t ∧ SameFlags s t ∧ SameStack s t ∧ SameRunState s t ∧ SameMemory s t ∧
      t.outputs = s.outputs ∧ SameInterruptSource s t ∧ SamePolicy s t ∧ (∀ q : BitVec 3, q ≠ p → t.stream q = s.stream q) ∧
      (∀ v rest, s.stream p = v :: rest → t.reg .a = v ∧ t.stream p = rest ∧ SameDraws s t) ∧
      (s.stream p = [] → t.reg .a = Config.freeByte s.draws ∧ t.stream p = [] ∧ t.draws = s.draws + 1)

/-- 43_input_output.md R231, R233: `OUT p` appends the event (p, A) to the output history and changes nothing else (decisions D13
and D22, log entries 6 and 18). -/
def Obligations.OutputAppendsOneEvent : Prop :=
  ∀ (s : State) (p : BitVec 5), 8 ≤ p.toNat →
    ∃ t, exec (.outP p) s = .next t ∧ t.outputs = s.outputs ++ [⟨p, s.reg .a⟩] ∧ t.inputs = s.inputs ∧ SameRegs s t ∧
      SameFlags s t ∧ SameStack s t ∧ SameRunState s t ∧ SameMemory s t ∧ SameInterruptSource s t ∧ SamePolicy s t ∧ SameDraws s t

/-- 44_machine.md R240, R241: `HLT` in its three encodings stops the machine and changes nothing else (that no flag changes is
decision D13, log entry 18). -/
def Obligations.HaltEntersStopped : Prop :=
  EncodedAs [0x00] .hlt ∧ EncodedAs [0x01] .hlt ∧ EncodedAs [0xFF] .hltFF ∧
  ∀ (s : State) (i : Instr), (i = .hlt ∨ i = .hltFF) →
    ∃ t, exec i s = .next t ∧ t.run = .stopped ∧ t.intreq = s.intreq ∧ SameRegs s t ∧ SameFlags s t ∧ SameStack s t ∧
      SameMemory s t ∧ SamePorts s t ∧ SameInterruptSource s t ∧ SamePolicy s t ∧ SameDraws s t

/-- 30_encoding.md R95: the six undefined first bytes are refused by their own value (decision D12, log entry 19). -/
def Obligations.UndefinedBytesAreRefused : Prop :=
  ∀ s : State,
    exec .undef22 s = .refused (.undefinedOpcode 0x22) ∧ exec .undef2A s = .refused (.undefinedOpcode 0x2A) ∧
    exec .undef32 s = .refused (.undefinedOpcode 0x32) ∧ exec .undef3A s = .refused (.undefinedOpcode 0x3A) ∧
    exec .undef38 s = .refused (.undefinedOpcode 0x38) ∧ exec .undef39 s = .refused (.undefinedOpcode 0x39)

/-! ## The step -/

/-- 00_scope.md R12, 10_state.md R30: when the bytes at `pc` decode to an instruction, the step is that instruction run with `pc`
past its bytes, and then the environment's action on INT (`endStep`, log entry 8). -/
def Obligations.StepRunsTheDecodedInstruction : Prop :=
  ∀ (bytes : List Byte) (i : Instr), decode bytes = .ok (i, []) → EncodedAs bytes i

/-- 20_memory.md R67: a fetch from an absent address takes the next free value as the first byte, whatever it is, and decodes it
like any other (decision D16, log entry 4). -/
def Obligations.AbsentFetchDrawsItsByte : Prop :=
  ∀ s : State, s.run = .running → s.intreq = false → s.kindAt s.pc = .absent →
    let u : State := (s.setDraws (s.draws + 1)).setPc (s.pc + 1)
    let next := u.fetchRest (Config.freeByte s.draws)
    s.firstByte = some (Config.freeByte s.draws) ∧ step s = endStep (exec next.1 next.2)

/-- 60_exceptions.md R254, R256: a pending interrupt, at a boundary or in STOPPED, supplies the first byte; `pc` is advanced only
past the bytes that memory supplies; `intreq` is cleared and `run` is RUNNING (decision D8, log entries 8 and 10). -/
def Obligations.InterruptSuppliesTheFirstByte : Prop :=
  ∀ (s : State) (i : Instr) (more : List Byte), s.intreq = true → decode (s.intByte :: more) = .ok (i, []) → s.BytesAt s.pc more →
    step s = endStep (exec i (({ s with intreq := false, run := .running } : State).setPc (s.pc + BitVec.ofNat 14 more.length)))

/-- 60_exceptions.md R254 to R257: an interrupt that supplies `RST n` saves the address of the instruction that would have run next,
and changes no register, flag or memory byte; at depth 7 the stack policy `fault` refuses its push (decisions D6 and D8, log entries
8 and 11). -/
def Obligations.InterruptRestartSavesTheNextAddress : Prop :=
  ∀ (s : State) (n : BitVec 3), s.intreq = true → s.intByte = opByte 0b00#2 n 0b101#3 →
    (¬ s.PushRefused → ∃ t, step s = .next t ∧ t.pc = BitVec.ofNat 14 (8 * n.toNat) ∧ t.sp = s.sp + 1 ∧ t.depth = s.depth + 1 ∧
      t.entry s.sp = s.pc ∧ (∀ k : BitVec 3, k ≠ s.sp + 1 → t.entry k = s.entry k) ∧ t.run = .running ∧ SameRegs s t ∧
      SameFlags s t ∧ SameMemory s t ∧ SamePorts s t ∧ SamePolicy s t ∧ SameDraws s t) ∧
    (s.PushRefused → step s = .refused .pushAtDepthSeven)

/-- 44_machine.md R242: in STOPPED with no interrupt pending the CPU changes nothing and stays STOPPED (that such a step is a next
state is the model's choice, log entry 9, and so is the schedule it uses up, log entry 8). -/
def Obligations.StoppedWaitsForAnInterrupt : Prop :=
  ∀ s : State, s.run = .stopped → s.intreq = false →
    ∃ t, step s = .next t ∧ t.run = .stopped ∧ SameRegs s t ∧ SameFlags s t ∧ SameStack s t ∧ SameMemory s t ∧ SamePorts s t ∧
      SamePolicy s t ∧ SameDraws s t ∧ (s.intSource = [] → t = s)

/-- 60_exceptions.md R253, R258: after a step an interrupt is pending exactly when the environment raised INT during it, with the
byte it supplied then; a request pending before the step has been taken (decisions D8 and D9, log entry 8). The model's own step in
STOPPED with nothing pending (log entry 9) is one of them. -/
def Obligations.PendingExactlyWhenRaised : Prop :=
  ∀ s t : State, step s = .next t →
    t.intSource = s.intSource.tail ∧
    (t.intreq = true ↔ ∃ j rest, s.intSource = some j :: rest) ∧
    ∀ j rest, s.intSource = some j :: rest → t.intByte = j

/-- 30_encoding.md R95, 60_exceptions.md R250, R254, 10_state.md R32: the four ways a step ends, each exactly when it does. It is refused as
an undefined byte when its first byte, fetched or supplied by the interrupt, is one of the six; as a push at depth 7 when the stack
policy is `fault`, the depth 7 and its instruction a call that is made; as a pop at depth 0 when the policy is `fault`, the depth 0 and
its instruction a return that is made; and in every other case it answers a next state (decisions D6, D12, D17 and D18, log entries 11,
19, 24 and 25). One of those cases is the model's choice: in STOPPED with nothing pending 00_scope.md R12 gives the CPU no step, and that
such a step is a next state is log entry 9. -/
def Obligations.StepStopsExactlyOnUndefinedBytesAndTheStackPolicy : Prop :=
  ∀ s : State,
    (∀ op, step s = .refused (.undefinedOpcode op) ↔ op ∈ undefinedBytes ∧ s.firstByte = some op) ∧
    (step s = .refused .pushAtDepthSeven ↔ s.PushRefused ∧ s.NextPushes) ∧
    (step s = .refused .popAtDepthZero ↔ s.PopRefused ∧ s.NextPops) ∧
    ((∃ t, step s = .next t) ↔
      (∀ op ∈ undefinedBytes, s.firstByte ≠ some op) ∧ ¬ (s.PushRefused ∧ s.NextPushes) ∧ ¬ (s.PopRefused ∧ s.NextPops))

/-! ## Rules of the whole machine -/

/-- 20_memory.md R53, 10_state.md R32: every step keeps an output history of ports 8 to 31 only and, under the stack policy `fault`,
a depth of 0 to 7 (decision D6, log entry 11). It also keeps the memory list's canonical form, which is the model's own choice
(`Memory.wf`, log entry 2). -/
def Obligations.EveryStepKeepsTheInvariant : Prop :=
  ∀ s t : State, s.Inv → step s = .next t → t.Inv

/-- The state after power-on has the invariant, on every platform whose initial contents are in canonical form. The canonical form,
the empty memory list and the empty output history are the model's own choices (log entries 2 and 6); the depth counts from the
start of the run (10_state.md R32). -/
def Obligations.PowerOnHasTheInvariant : Prop :=
  State.reset.Inv ∧ ∀ p : Platform, p.mem.wf → (State.powerOn p).Inv

/-- 20_memory.md R55, R67: no step changes what ROM or an absent address holds, nor the memory map (decision D16, log entry 3). -/
def Obligations.NoStepChangesRom : Prop :=
  ∀ s t : State, step s = .next t → t.memMap = s.memMap ∧ ∀ a : Addr, s.kindAt a ≠ .ram → t.byteAt a = s.byteAt a

/-- 20_memory.md R51: no instruction but `MOV M,r` and `MVI M` changes a byte of memory. -/
def Obligations.OnlyTheStoresWriteMemory : Prop :=
  ∀ (i : Instr) (s t : State), exec i s = .next t → (∀ src, i ≠ .movMR src) → (∀ v, i ≠ .mviM v) → SameMemory s t

/-- 10_state.md R22, R26: which group writes which flag, and which groups write no register (that the last three groups and `IN`
write no flag is decision D13, log entry 18). -/
def Obligations.FlagAndRegisterTable : Prop :=
  ∀ (i : Instr) (s t : State), exec i s = .next t →
    (groupOf i ∈ [.load, .control, .input, .output, .halt] → SameFlags s t) ∧
    (groupOf i = .step → t.flags.cy = s.flags.cy) ∧
    (groupOf i = .rotate → t.flags.z = s.flags.z ∧ t.flags.s = s.flags.s ∧ t.flags.p = s.flags.p) ∧
    (groupOf i ∈ [.control, .output, .halt] → SameRegs s t) ∧
    (groupOf i ∈ [.alu, .rotate, .input] → SameRegsBut .a s t)

/-- 10_state.md R28, R31: a step moves the stack pointer, and the depth with it, by at most one, and writes no entry but the program
counter's and the next one up (decision D6, log entry 11). -/
def Obligations.StepTouchesTwoStackEntries : Prop :=
  ∀ s t : State, step s = .next t →
    (t.sp = s.sp ∧ t.depth = s.depth ∨ t.sp = s.sp + 1 ∧ t.depth = s.depth + 1 ∨ t.sp = s.sp - 1 ∧ t.depth = s.depth - 1) ∧
    (∀ k : BitVec 3, k ≠ s.sp → k ≠ s.sp + 1 → t.entry k = s.entry k) ∧ SamePolicy s t

/-- 43_input_output.md R233: the output history only grows, by at most one event a step. -/
def Obligations.OutputHistoryOnlyGrows : Prop :=
  ∀ s t : State, step s = .next t → t.outputs = s.outputs ∨ ∃ e, t.outputs = s.outputs ++ [e]

/-- 20_memory.md R64: a byte that `MOV M,r` or `MVI M` stores at the next instruction's address is the first byte of the instruction
the very next step runs, whatever that instruction is, with no instruction between (decision D15, log entry 23). -/
def Obligations.StoreIsSeenByTheNextFetch : Prop :=
  ∀ (s : State) (i : Instr) (v : Byte), (i = .mviM v ∨ ∃ src, i = .movMR src ∧ v = s.reg src) →
    s.kindAt s.mAddr = .ram → s.pc = s.mAddr → s.run = .running → s.intreq = false →
    ∃ t, exec i s = .next t ∧ t.firstByte = some v ∧
      ∀ (j : Instr) (more : List Byte), decode (v :: more) = .ok (j, []) → s.BytesAt (s.pc + 1) more →
        step t = endStep (exec j (t.setPc (t.pc + BitVec.ofNat 14 (more.length + 1))))

/-- 00_scope.md R6, 10_state.md R32, R40, 70_reset_and_hazards.md R290, R292: on every platform the state after power-on is STOPPED with no
interrupt pending (decision D10, log entry 28), at depth 0 (log entry 11), holds what the platform says, and has the platform's
`BootInstruction` coming (decision D11). The model's own choices are: the schedule with that byte as its first entry, before the
platform's own (log entries 7 and 8); the empty output history (log entry 6); and on the standard platform the zero registers, flags,
stack and SP (log entry 1), the zero memory (log entry 2) and the empty list of regions that makes all of it RAM, the default of
decision D16 (log entry 3). `wrap` there is the default of decision D6 (log entry 11). -/
def Obligations.PowerOnState : Prop :=
  (∀ p : Platform, (State.powerOn p).run = .stopped ∧ (State.powerOn p).intreq = false ∧
    (∀ r, (State.powerOn p).reg r = p.powerOn.regs.get r) ∧ (State.powerOn p).flags = p.powerOn.flags ∧
    (∀ k : BitVec 3, (State.powerOn p).entry k = p.powerOn.stk[k.toNat]'k.isLt) ∧ (State.powerOn p).sp = p.powerOn.sp ∧
    (State.powerOn p).depth = 0 ∧ (∀ a : Addr, (State.powerOn p).byteAt a = p.mem.read a.toNat) ∧ (State.powerOn p).memMap = p.memMap ∧
    (State.powerOn p).inputs = p.inputs ∧ (State.powerOn p).stackPolicy = p.stackPolicy ∧ (State.powerOn p).outputs = [] ∧
    (State.powerOn p).intSource = some p.bootInstruction :: p.intSource) ∧
  State.reset = State.powerOn .standard ∧ (∀ r, State.reset.reg r = 0) ∧ State.reset.flags = ⟨false, false, false, false⟩ ∧
  (∀ k, State.reset.entry k = 0) ∧ State.reset.sp = 0 ∧ (∀ a, State.reset.byteAt a = 0) ∧ (∀ a, State.reset.kindAt a = .ram) ∧
  State.reset.stackPolicy = .wrap

/-- 70_reset_and_hazards.md R292, 00_scope.md R6: from power-on on any platform whose `BootInstruction` is `RST n`, the boot
interrupt leads to 8 * n with one stack level used, in two steps; the default `RST 0` leads to 0000H (decision D11, log entry 7).
That it takes two is the model's choice: the schedule raises INT during the first (log entries 7 and 8), which in STOPPED with nothing
pending is a next state (log entry 9). -/
def Obligations.BootReachesAddressZero : Prop :=
  (∀ (p : Platform) (n : BitVec 3), p.bootInstruction = opByte 0b00#2 n 0b101#3 →
    ∃ t, stepN 2 (State.powerOn p) = .next t ∧ t.run = .running ∧ t.pc = BitVec.ofNat 14 (8 * n.toNat) ∧
      t.sp = p.powerOn.sp + 1 ∧ t.depth = 1 ∧ (p.intSource = [] → t.intreq = false)) ∧
  ∃ t, stepN 2 State.reset = .next t ∧ t.run = .running ∧ t.intreq = false ∧ t.pc = 0 ∧ t.sp = State.reset.sp + 1
end

