-- ==== Sys2Proof/Laws/Decode.lean ====
section
/-! SUPPORT. The fields of an instruction byte, and the register codes. -/

namespace Sys2Proof

@[simp] theorem majorField_opByte (g : BitVec 2) (y w : BitVec 3) : majorField (opByte g y w) = g := by
  revert g y w; decide

@[simp] theorem middleField_opByte (g : BitVec 2) (y w : BitVec 3) : middleField (opByte g y w) = y := by
  revert g y w; decide

@[simp] theorem lowField_opByte (g : BitVec 2) (y w : BitVec 3) : lowField (opByte g y w) = w := by
  revert g y w; decide

/-- Every byte is made of its three fields. -/
theorem opByte_fields (op : Byte) : opByte (majorField op) (middleField op) (lowField op) = op := by
  revert op; decide

@[simp] theorem Reg.ofCode_code (r : Reg) : Reg.ofCode r.code = some r := by cases r <;> rfl

/-- A register code is never 111. -/
theorem Reg.code_ne_memory (r : Reg) : r.code ≠ 0b111#3 := by cases r <;> decide

/-- A target is what its two address bytes say. -/
@[simp] theorem addrOf_low_high (t : Addr) : addrOf (addrLow t) (addrHigh t) = t := by
  apply BitVec.eq_of_getLsbD_eq
  intro i hi
  simp only [addrOf, addrLow, addrHigh, BitVec.getLsbD_append, BitVec.getLsbD_extractLsb']
  by_cases h : i < 8
  · simp [h]
  · have h6 : i - 8 < 6 := by omega
    have e : 8 + (i - 8) = i := by omega
    simp [h, h6, e]

/-- The length of an instruction is 1, 2 or 3 bytes. -/
theorem instrLength_cases (op : Byte) : instrLength op = 1 ∨ instrLength op = 2 ∨ instrLength op = 3 := by
  unfold instrLength
  split
  · simp
  · split <;> simp

end Sys2Proof
end

