-- ==== Sys2Proof/Laws/Flags.lean ====
section
/-! SUPPORT. What the flag computations and the arithmetic are, said once each. -/

namespace Sys2Proof.Machine

theorem add8_fst_toNat (a v : Byte) (cin : Bool) :
    (add8 a v cin).1.toNat = (a.toNat + v.toNat + cin.toNat) % 256 := by
  simp [add8]

theorem add8_snd (a v : Byte) (cin : Bool) :
    (add8 a v cin).2 = decide (255 < a.toNat + v.toNat + cin.toNat) := rfl

theorem sub8_snd (a v : Byte) (bin : Bool) :
    (sub8 a v bin).2 = decide (a.toNat < v.toNat + bin.toNat) := by
  simp only [sub8]
  congr 1
  simp only [eq_iff_iff]
  omega

theorem sub8_fst_toInt (a v : Byte) (bin : Bool) :
    ((sub8 a v bin).1.toNat : Int) = ((a.toNat : Int) - v.toNat - bin.toNat) % 256 := by
  simp only [sub8, BitVec.toNat_ofInt]
  omega

/-- Without a borrow-in, the difference is the difference of the words. -/
theorem sub8_false_fst (a v : Byte) : (sub8 a v false).1 = a - v := by
  apply BitVec.eq_of_toNat_eq
  have h := sub8_fst_toInt a v false
  simp only [Bool.toNat_false, BitVec.toNat_sub] at h ⊢
  omega

theorem evenParity_iff (v : Byte) : evenParity v = true ↔ onesCount v % 2 = 0 := by
  simp [evenParity]

theorem taken_iff (f : Flags) (sense : Bool) (cc : BitVec 2) : f.taken sense cc = true ↔ f.condition cc = sense := by
  simp [Flags.taken]

end Sys2Proof.Machine
end

