-- ==== Sys2Proof/Laws/Memory.lean ====
section
/-! SUPPORT. Memory as data: a read after a write, and the canonical form that every operation keeps. -/

namespace Sys2Proof.Machine

/-! ## A read after an operation -/

theorem Memory.read_cons (k a : Nat) (w : Byte) (rest : Memory) :
    Memory.read ((k, w) :: rest) a = if k = a then w else Memory.read rest a := rfl

theorem Memory.read_insert (m : Memory) (a b : Nat) (v : Byte) :
    (m.insert a v).read b = if b = a then v else m.read b := by
  induction m with
  | nil => simp [Memory.insert, Memory.read_cons, eq_comm]
  | cons cell rest ih =>
    obtain ⟨k, w⟩ := cell
    simp only [Memory.insert]
    by_cases hb : b = a
    · subst hb
      split
      · simp [Memory.read_cons]
      · split <;> simp_all [Memory.read_cons]
    · have hb' : ¬ a = b := fun e => hb e.symm
      split
      · simp [Memory.read_cons, hb']
      · split <;> simp_all [Memory.read_cons]

theorem Memory.read_erase (m : Memory) (a b : Nat) :
    (m.erase a).read b = if b = a then Config.unwrittenByte else m.read b := by
  induction m with
  | nil => simp [Memory.erase, Memory.read]
  | cons cell rest ih =>
    obtain ⟨k, w⟩ := cell
    simp only [Memory.erase] at ih
    by_cases hk : k = a <;> by_cases hb : k = b <;> simp_all [Memory.erase, Memory.read]

/-- A write changes the one address it names. -/
theorem Memory.read_write (m : Memory) (a b : Nat) (v : Byte) :
    (m.write a v).read b = if b = a then v else m.read b := by
  by_cases h : v = Config.unwrittenByte <;> simp [Memory.write, h, Memory.read_erase, Memory.read_insert]

/-! ## The canonical form -/

theorem Memory.mem_insert {m : Memory} {a : Nat} {v : Byte} {c : Host.Cell} (h : c ∈ m.insert a v) :
    c = (a, v) ∨ c ∈ m := by
  induction m with
  | nil => simpa [Memory.insert] using h
  | cons cell rest ih =>
    obtain ⟨k, w⟩ := cell
    simp only [Memory.insert] at h
    split at h
    · simpa using h
    · split at h
      · rcases List.mem_cons.mp h with h | h
        · exact .inl h
        · exact .inr (List.mem_cons_of_mem _ h)
      · rcases List.mem_cons.mp h with h | h
        · exact .inr (h ▸ List.mem_cons_self)
        · exact (ih h).imp id (List.mem_cons_of_mem _)

theorem Memory.pairwise_insert {m : Memory} (a : Nat) (v : Byte) (h : m.Pairwise (fun x y => x.1 < y.1)) :
    (m.insert a v).Pairwise (fun x y => x.1 < y.1) := by
  induction m with
  | nil => simp [Memory.insert]
  | cons cell rest ih =>
    obtain ⟨k, w⟩ := cell
    obtain ⟨hk, hrest⟩ := List.pairwise_cons.mp h
    simp only [Memory.insert]
    split
    · rename_i hak
      refine List.pairwise_cons.mpr ⟨fun c hc => ?_, h⟩
      rcases List.mem_cons.mp hc with rfl | hc
      · exact hak
      · exact Nat.lt_trans hak (hk c hc)
    · split
      · rename_i hka
        exact List.pairwise_cons.mpr ⟨fun c hc => hka ▸ hk c hc, hrest⟩
      · rename_i hak hka
        refine List.pairwise_cons.mpr ⟨fun c hc => ?_, ih hrest⟩
        rcases Memory.mem_insert hc with rfl | hc
        · show k < a
          omega
        · exact hk c hc

theorem Memory.wf_nil : Memory.wf [] := by simp [Memory.wf]

theorem Memory.wf_erase {m : Memory} (a : Nat) (h : m.wf) : (m.erase a).wf :=
  ⟨h.1.filter _, fun c hc => h.2 c (List.mem_of_mem_filter hc)⟩

/-- A write inside the address space keeps the canonical form. -/
theorem Memory.wf_write {m : Memory} {a : Nat} (v : Byte) (h : m.wf) (ha : a < Config.memSize) : (m.write a v).wf := by
  simp only [Memory.write]
  split
  · exact Memory.wf_erase a h
  · rename_i hv
    refine ⟨Memory.pairwise_insert a v h.1, fun c hc => ?_⟩
    rcases Memory.mem_insert hc with rfl | hc
    · exact ⟨ha, hv⟩
    · exact h.2 c hc

/-- A 14-bit address is inside the address space. -/
theorem addr_lt_memSize (a : Addr) : a.toNat < Config.memSize := a.isLt

/-- The write of `MemWrite` keeps the canonical form. -/
theorem State.memWrite_wf (s : State) (a : Addr) (v : Byte) (h : s.mem.wf) : (s.memWrite a v).mem.wf := by
  unfold State.memWrite
  split
  · exact Memory.wf_write v h (addr_lt_memSize a)
  · exact h
  · exact h

/-- The loader's write keeps the canonical form. -/
theorem State.placeByte_wf (s : State) (a : Addr) (v : Byte) (h : s.mem.wf) : (s.placeByte a v).mem.wf := by
  unfold State.placeByte
  split <;> exact Memory.wf_write v h (addr_lt_memSize a)

theorem State.placeBytes_wf (bytes : List Byte) (s : State) (a : Addr) (h : s.mem.wf) : (s.placeBytes a bytes).mem.wf := by
  induction bytes generalizing s a with
  | nil => exact h
  | cons v rest ih => exact ih _ _ (State.placeByte_wf s a v h)

/-- The platform's initial contents are the memory after power-on. -/
theorem State.powerOn_mem_wf {p : Platform} (h : p.mem.wf) : (State.powerOn p).mem.wf := h

theorem State.reset_mem_wf : State.reset.mem.wf := Memory.wf_nil

end Sys2Proof.Machine
end

