-- ==== Sys2Proof/Laws/State.lean ====
section
/-! SUPPORT. What each field of the state is after each update: one lemma for each field and update, and the same for the accessors
`reg`, `entry`, `byteAt`, `kindAt`, `mAddr`. -/

namespace Sys2Proof.Machine

/-! ## `s.setReg r v` -/

@[simp] theorem State.setReg_regs (s : State) (r : Reg) (v : Byte) : (s.setReg r v).regs = s.regs.set r v := rfl
@[simp] theorem State.setReg_flags (s : State) (r : Reg) (v : Byte) : (s.setReg r v).flags = s.flags := rfl
@[simp] theorem State.setReg_stk (s : State) (r : Reg) (v : Byte) : (s.setReg r v).stk = s.stk := rfl
@[simp] theorem State.setReg_sp (s : State) (r : Reg) (v : Byte) : (s.setReg r v).sp = s.sp := rfl
@[simp] theorem State.setReg_run (s : State) (r : Reg) (v : Byte) : (s.setReg r v).run = s.run := rfl
@[simp] theorem State.setReg_intreq (s : State) (r : Reg) (v : Byte) : (s.setReg r v).intreq = s.intreq := rfl
@[simp] theorem State.setReg_mem (s : State) (r : Reg) (v : Byte) : (s.setReg r v).mem = s.mem := rfl
@[simp] theorem State.setReg_memMap (s : State) (r : Reg) (v : Byte) : (s.setReg r v).memMap = s.memMap := rfl
@[simp] theorem State.setReg_inputs (s : State) (r : Reg) (v : Byte) : (s.setReg r v).inputs = s.inputs := rfl
@[simp] theorem State.setReg_outputs (s : State) (r : Reg) (v : Byte) : (s.setReg r v).outputs = s.outputs := rfl
@[simp] theorem State.setReg_intByte (s : State) (r : Reg) (v : Byte) : (s.setReg r v).intByte = s.intByte := rfl
@[simp] theorem State.setReg_intSource (s : State) (r : Reg) (v : Byte) : (s.setReg r v).intSource = s.intSource := rfl
@[simp] theorem State.setReg_draws (s : State) (r : Reg) (v : Byte) : (s.setReg r v).draws = s.draws := rfl
@[simp] theorem State.setReg_depth (s : State) (r : Reg) (v : Byte) : (s.setReg r v).depth = s.depth := rfl
@[simp] theorem State.setReg_stackPolicy (s : State) (r : Reg) (v : Byte) : (s.setReg r v).stackPolicy = s.stackPolicy := rfl
@[simp] theorem State.setReg_entry (s : State) (r : Reg) (v : Byte) (j : BitVec 3) : (s.setReg r v).entry j = s.entry j := rfl
@[simp] theorem State.setReg_byteAt (s : State) (r : Reg) (v : Byte) (a : Addr) : (s.setReg r v).byteAt a = s.byteAt a := rfl
@[simp] theorem State.setReg_kindAt (s : State) (r : Reg) (v : Byte) (a : Addr) : (s.setReg r v).kindAt a = s.kindAt a := rfl
@[simp] theorem State.setReg_pc (s : State) (r : Reg) (v : Byte) : (s.setReg r v).pc = s.pc := rfl

/-! ## `s.setFlags f` -/

@[simp] theorem State.setFlags_regs (s : State) (f : Flags) : (s.setFlags f).regs = s.regs := rfl
@[simp] theorem State.setFlags_flags (s : State) (f : Flags) : (s.setFlags f).flags = f := rfl
@[simp] theorem State.setFlags_stk (s : State) (f : Flags) : (s.setFlags f).stk = s.stk := rfl
@[simp] theorem State.setFlags_sp (s : State) (f : Flags) : (s.setFlags f).sp = s.sp := rfl
@[simp] theorem State.setFlags_run (s : State) (f : Flags) : (s.setFlags f).run = s.run := rfl
@[simp] theorem State.setFlags_intreq (s : State) (f : Flags) : (s.setFlags f).intreq = s.intreq := rfl
@[simp] theorem State.setFlags_mem (s : State) (f : Flags) : (s.setFlags f).mem = s.mem := rfl
@[simp] theorem State.setFlags_memMap (s : State) (f : Flags) : (s.setFlags f).memMap = s.memMap := rfl
@[simp] theorem State.setFlags_inputs (s : State) (f : Flags) : (s.setFlags f).inputs = s.inputs := rfl
@[simp] theorem State.setFlags_outputs (s : State) (f : Flags) : (s.setFlags f).outputs = s.outputs := rfl
@[simp] theorem State.setFlags_intByte (s : State) (f : Flags) : (s.setFlags f).intByte = s.intByte := rfl
@[simp] theorem State.setFlags_intSource (s : State) (f : Flags) : (s.setFlags f).intSource = s.intSource := rfl
@[simp] theorem State.setFlags_draws (s : State) (f : Flags) : (s.setFlags f).draws = s.draws := rfl
@[simp] theorem State.setFlags_depth (s : State) (f : Flags) : (s.setFlags f).depth = s.depth := rfl
@[simp] theorem State.setFlags_stackPolicy (s : State) (f : Flags) : (s.setFlags f).stackPolicy = s.stackPolicy := rfl
@[simp] theorem State.setFlags_reg (s : State) (f : Flags) (q : Reg) : (s.setFlags f).reg q = s.reg q := rfl
@[simp] theorem State.setFlags_mAddr (s : State) (f : Flags) : (s.setFlags f).mAddr = s.mAddr := rfl
@[simp] theorem State.setFlags_entry (s : State) (f : Flags) (j : BitVec 3) : (s.setFlags f).entry j = s.entry j := rfl
@[simp] theorem State.setFlags_byteAt (s : State) (f : Flags) (a : Addr) : (s.setFlags f).byteAt a = s.byteAt a := rfl
@[simp] theorem State.setFlags_kindAt (s : State) (f : Flags) (a : Addr) : (s.setFlags f).kindAt a = s.kindAt a := rfl
@[simp] theorem State.setFlags_pc (s : State) (f : Flags) : (s.setFlags f).pc = s.pc := rfl

/-! ## `s.setRun x` -/

@[simp] theorem State.setRun_regs (s : State) (x : RunState) : (s.setRun x).regs = s.regs := rfl
@[simp] theorem State.setRun_flags (s : State) (x : RunState) : (s.setRun x).flags = s.flags := rfl
@[simp] theorem State.setRun_stk (s : State) (x : RunState) : (s.setRun x).stk = s.stk := rfl
@[simp] theorem State.setRun_sp (s : State) (x : RunState) : (s.setRun x).sp = s.sp := rfl
@[simp] theorem State.setRun_run (s : State) (x : RunState) : (s.setRun x).run = x := rfl
@[simp] theorem State.setRun_intreq (s : State) (x : RunState) : (s.setRun x).intreq = s.intreq := rfl
@[simp] theorem State.setRun_mem (s : State) (x : RunState) : (s.setRun x).mem = s.mem := rfl
@[simp] theorem State.setRun_memMap (s : State) (x : RunState) : (s.setRun x).memMap = s.memMap := rfl
@[simp] theorem State.setRun_inputs (s : State) (x : RunState) : (s.setRun x).inputs = s.inputs := rfl
@[simp] theorem State.setRun_outputs (s : State) (x : RunState) : (s.setRun x).outputs = s.outputs := rfl
@[simp] theorem State.setRun_intByte (s : State) (x : RunState) : (s.setRun x).intByte = s.intByte := rfl
@[simp] theorem State.setRun_intSource (s : State) (x : RunState) : (s.setRun x).intSource = s.intSource := rfl
@[simp] theorem State.setRun_draws (s : State) (x : RunState) : (s.setRun x).draws = s.draws := rfl
@[simp] theorem State.setRun_depth (s : State) (x : RunState) : (s.setRun x).depth = s.depth := rfl
@[simp] theorem State.setRun_stackPolicy (s : State) (x : RunState) : (s.setRun x).stackPolicy = s.stackPolicy := rfl
@[simp] theorem State.setRun_reg (s : State) (x : RunState) (q : Reg) : (s.setRun x).reg q = s.reg q := rfl
@[simp] theorem State.setRun_mAddr (s : State) (x : RunState) : (s.setRun x).mAddr = s.mAddr := rfl
@[simp] theorem State.setRun_entry (s : State) (x : RunState) (j : BitVec 3) : (s.setRun x).entry j = s.entry j := rfl
@[simp] theorem State.setRun_byteAt (s : State) (x : RunState) (a : Addr) : (s.setRun x).byteAt a = s.byteAt a := rfl
@[simp] theorem State.setRun_kindAt (s : State) (x : RunState) (a : Addr) : (s.setRun x).kindAt a = s.kindAt a := rfl
@[simp] theorem State.setRun_pc (s : State) (x : RunState) : (s.setRun x).pc = s.pc := rfl

/-! ## `s.setEntry k v` -/

@[simp] theorem State.setEntry_regs (s : State) (k : BitVec 3) (v : Addr) : (s.setEntry k v).regs = s.regs := rfl
@[simp] theorem State.setEntry_flags (s : State) (k : BitVec 3) (v : Addr) : (s.setEntry k v).flags = s.flags := rfl
@[simp] theorem State.setEntry_stk (s : State) (k : BitVec 3) (v : Addr) : (s.setEntry k v).stk = s.stk.set k.toNat v k.isLt := rfl
@[simp] theorem State.setEntry_sp (s : State) (k : BitVec 3) (v : Addr) : (s.setEntry k v).sp = s.sp := rfl
@[simp] theorem State.setEntry_run (s : State) (k : BitVec 3) (v : Addr) : (s.setEntry k v).run = s.run := rfl
@[simp] theorem State.setEntry_intreq (s : State) (k : BitVec 3) (v : Addr) : (s.setEntry k v).intreq = s.intreq := rfl
@[simp] theorem State.setEntry_mem (s : State) (k : BitVec 3) (v : Addr) : (s.setEntry k v).mem = s.mem := rfl
@[simp] theorem State.setEntry_memMap (s : State) (k : BitVec 3) (v : Addr) : (s.setEntry k v).memMap = s.memMap := rfl
@[simp] theorem State.setEntry_inputs (s : State) (k : BitVec 3) (v : Addr) : (s.setEntry k v).inputs = s.inputs := rfl
@[simp] theorem State.setEntry_outputs (s : State) (k : BitVec 3) (v : Addr) : (s.setEntry k v).outputs = s.outputs := rfl
@[simp] theorem State.setEntry_intByte (s : State) (k : BitVec 3) (v : Addr) : (s.setEntry k v).intByte = s.intByte := rfl
@[simp] theorem State.setEntry_intSource (s : State) (k : BitVec 3) (v : Addr) : (s.setEntry k v).intSource = s.intSource := rfl
@[simp] theorem State.setEntry_draws (s : State) (k : BitVec 3) (v : Addr) : (s.setEntry k v).draws = s.draws := rfl
@[simp] theorem State.setEntry_depth (s : State) (k : BitVec 3) (v : Addr) : (s.setEntry k v).depth = s.depth := rfl
@[simp] theorem State.setEntry_stackPolicy (s : State) (k : BitVec 3) (v : Addr) : (s.setEntry k v).stackPolicy = s.stackPolicy := rfl
@[simp] theorem State.setEntry_reg (s : State) (k : BitVec 3) (v : Addr) (q : Reg) : (s.setEntry k v).reg q = s.reg q := rfl
@[simp] theorem State.setEntry_mAddr (s : State) (k : BitVec 3) (v : Addr) : (s.setEntry k v).mAddr = s.mAddr := rfl
@[simp] theorem State.setEntry_byteAt (s : State) (k : BitVec 3) (v : Addr) (a : Addr) : (s.setEntry k v).byteAt a = s.byteAt a := rfl
@[simp] theorem State.setEntry_kindAt (s : State) (k : BitVec 3) (v : Addr) (a : Addr) : (s.setEntry k v).kindAt a = s.kindAt a := rfl

/-! ## `s.setLevel k d` -/

@[simp] theorem State.setLevel_regs (s : State) (k : BitVec 3) (d : Int) : (s.setLevel k d).regs = s.regs := rfl
@[simp] theorem State.setLevel_flags (s : State) (k : BitVec 3) (d : Int) : (s.setLevel k d).flags = s.flags := rfl
@[simp] theorem State.setLevel_stk (s : State) (k : BitVec 3) (d : Int) : (s.setLevel k d).stk = s.stk := rfl
@[simp] theorem State.setLevel_sp (s : State) (k : BitVec 3) (d : Int) : (s.setLevel k d).sp = k := rfl
@[simp] theorem State.setLevel_run (s : State) (k : BitVec 3) (d : Int) : (s.setLevel k d).run = s.run := rfl
@[simp] theorem State.setLevel_intreq (s : State) (k : BitVec 3) (d : Int) : (s.setLevel k d).intreq = s.intreq := rfl
@[simp] theorem State.setLevel_mem (s : State) (k : BitVec 3) (d : Int) : (s.setLevel k d).mem = s.mem := rfl
@[simp] theorem State.setLevel_memMap (s : State) (k : BitVec 3) (d : Int) : (s.setLevel k d).memMap = s.memMap := rfl
@[simp] theorem State.setLevel_inputs (s : State) (k : BitVec 3) (d : Int) : (s.setLevel k d).inputs = s.inputs := rfl
@[simp] theorem State.setLevel_outputs (s : State) (k : BitVec 3) (d : Int) : (s.setLevel k d).outputs = s.outputs := rfl
@[simp] theorem State.setLevel_intByte (s : State) (k : BitVec 3) (d : Int) : (s.setLevel k d).intByte = s.intByte := rfl
@[simp] theorem State.setLevel_intSource (s : State) (k : BitVec 3) (d : Int) : (s.setLevel k d).intSource = s.intSource := rfl
@[simp] theorem State.setLevel_draws (s : State) (k : BitVec 3) (d : Int) : (s.setLevel k d).draws = s.draws := rfl
@[simp] theorem State.setLevel_depth (s : State) (k : BitVec 3) (d : Int) : (s.setLevel k d).depth = d := rfl
@[simp] theorem State.setLevel_stackPolicy (s : State) (k : BitVec 3) (d : Int) : (s.setLevel k d).stackPolicy = s.stackPolicy := rfl
@[simp] theorem State.setLevel_reg (s : State) (k : BitVec 3) (d : Int) (q : Reg) : (s.setLevel k d).reg q = s.reg q := rfl
@[simp] theorem State.setLevel_mAddr (s : State) (k : BitVec 3) (d : Int) : (s.setLevel k d).mAddr = s.mAddr := rfl
@[simp] theorem State.setLevel_entry (s : State) (k : BitVec 3) (d : Int) (j : BitVec 3) : (s.setLevel k d).entry j = s.entry j := rfl
@[simp] theorem State.setLevel_byteAt (s : State) (k : BitVec 3) (d : Int) (a : Addr) : (s.setLevel k d).byteAt a = s.byteAt a := rfl
@[simp] theorem State.setLevel_kindAt (s : State) (k : BitVec 3) (d : Int) (a : Addr) : (s.setLevel k d).kindAt a = s.kindAt a := rfl

/-! ## `s.setPc v` -/

@[simp] theorem State.setPc_regs (s : State) (v : Addr) : (s.setPc v).regs = s.regs := rfl
@[simp] theorem State.setPc_flags (s : State) (v : Addr) : (s.setPc v).flags = s.flags := rfl
@[simp] theorem State.setPc_stk (s : State) (v : Addr) : (s.setPc v).stk = s.stk.set s.sp.toNat v s.sp.isLt := rfl
@[simp] theorem State.setPc_sp (s : State) (v : Addr) : (s.setPc v).sp = s.sp := rfl
@[simp] theorem State.setPc_run (s : State) (v : Addr) : (s.setPc v).run = s.run := rfl
@[simp] theorem State.setPc_intreq (s : State) (v : Addr) : (s.setPc v).intreq = s.intreq := rfl
@[simp] theorem State.setPc_mem (s : State) (v : Addr) : (s.setPc v).mem = s.mem := rfl
@[simp] theorem State.setPc_memMap (s : State) (v : Addr) : (s.setPc v).memMap = s.memMap := rfl
@[simp] theorem State.setPc_inputs (s : State) (v : Addr) : (s.setPc v).inputs = s.inputs := rfl
@[simp] theorem State.setPc_outputs (s : State) (v : Addr) : (s.setPc v).outputs = s.outputs := rfl
@[simp] theorem State.setPc_intByte (s : State) (v : Addr) : (s.setPc v).intByte = s.intByte := rfl
@[simp] theorem State.setPc_intSource (s : State) (v : Addr) : (s.setPc v).intSource = s.intSource := rfl
@[simp] theorem State.setPc_draws (s : State) (v : Addr) : (s.setPc v).draws = s.draws := rfl
@[simp] theorem State.setPc_depth (s : State) (v : Addr) : (s.setPc v).depth = s.depth := rfl
@[simp] theorem State.setPc_stackPolicy (s : State) (v : Addr) : (s.setPc v).stackPolicy = s.stackPolicy := rfl
@[simp] theorem State.setPc_reg (s : State) (v : Addr) (q : Reg) : (s.setPc v).reg q = s.reg q := rfl
@[simp] theorem State.setPc_mAddr (s : State) (v : Addr) : (s.setPc v).mAddr = s.mAddr := rfl
@[simp] theorem State.setPc_byteAt (s : State) (v : Addr) (a : Addr) : (s.setPc v).byteAt a = s.byteAt a := rfl
@[simp] theorem State.setPc_kindAt (s : State) (v : Addr) (a : Addr) : (s.setPc v).kindAt a = s.kindAt a := rfl

/-! ## `s.push v` -/

@[simp] theorem State.push_regs (s : State) (v : Addr) : (s.push v).regs = s.regs := rfl
@[simp] theorem State.push_flags (s : State) (v : Addr) : (s.push v).flags = s.flags := rfl
@[simp] theorem State.push_stk (s : State) (v : Addr) : (s.push v).stk = s.stk.set (s.sp + 1).toNat v (s.sp + 1).isLt := rfl
@[simp] theorem State.push_sp (s : State) (v : Addr) : (s.push v).sp = s.sp + 1 := rfl
@[simp] theorem State.push_run (s : State) (v : Addr) : (s.push v).run = s.run := rfl
@[simp] theorem State.push_intreq (s : State) (v : Addr) : (s.push v).intreq = s.intreq := rfl
@[simp] theorem State.push_mem (s : State) (v : Addr) : (s.push v).mem = s.mem := rfl
@[simp] theorem State.push_memMap (s : State) (v : Addr) : (s.push v).memMap = s.memMap := rfl
@[simp] theorem State.push_inputs (s : State) (v : Addr) : (s.push v).inputs = s.inputs := rfl
@[simp] theorem State.push_outputs (s : State) (v : Addr) : (s.push v).outputs = s.outputs := rfl
@[simp] theorem State.push_intByte (s : State) (v : Addr) : (s.push v).intByte = s.intByte := rfl
@[simp] theorem State.push_intSource (s : State) (v : Addr) : (s.push v).intSource = s.intSource := rfl
@[simp] theorem State.push_draws (s : State) (v : Addr) : (s.push v).draws = s.draws := rfl
@[simp] theorem State.push_depth (s : State) (v : Addr) : (s.push v).depth = s.depth + 1 := rfl
@[simp] theorem State.push_stackPolicy (s : State) (v : Addr) : (s.push v).stackPolicy = s.stackPolicy := rfl
@[simp] theorem State.push_reg (s : State) (v : Addr) (q : Reg) : (s.push v).reg q = s.reg q := rfl
@[simp] theorem State.push_mAddr (s : State) (v : Addr) : (s.push v).mAddr = s.mAddr := rfl
@[simp] theorem State.push_byteAt (s : State) (v : Addr) (a : Addr) : (s.push v).byteAt a = s.byteAt a := rfl
@[simp] theorem State.push_kindAt (s : State) (v : Addr) (a : Addr) : (s.push v).kindAt a = s.kindAt a := rfl

/-! ## `s.pop` -/

@[simp] theorem State.pop_regs (s : State) : (s.pop).regs = s.regs := rfl
@[simp] theorem State.pop_flags (s : State) : (s.pop).flags = s.flags := rfl
@[simp] theorem State.pop_stk (s : State) : (s.pop).stk = s.stk := rfl
@[simp] theorem State.pop_sp (s : State) : (s.pop).sp = s.sp - 1 := rfl
@[simp] theorem State.pop_run (s : State) : (s.pop).run = s.run := rfl
@[simp] theorem State.pop_intreq (s : State) : (s.pop).intreq = s.intreq := rfl
@[simp] theorem State.pop_mem (s : State) : (s.pop).mem = s.mem := rfl
@[simp] theorem State.pop_memMap (s : State) : (s.pop).memMap = s.memMap := rfl
@[simp] theorem State.pop_inputs (s : State) : (s.pop).inputs = s.inputs := rfl
@[simp] theorem State.pop_outputs (s : State) : (s.pop).outputs = s.outputs := rfl
@[simp] theorem State.pop_intByte (s : State) : (s.pop).intByte = s.intByte := rfl
@[simp] theorem State.pop_intSource (s : State) : (s.pop).intSource = s.intSource := rfl
@[simp] theorem State.pop_draws (s : State) : (s.pop).draws = s.draws := rfl
@[simp] theorem State.pop_depth (s : State) : (s.pop).depth = s.depth - 1 := rfl
@[simp] theorem State.pop_stackPolicy (s : State) : (s.pop).stackPolicy = s.stackPolicy := rfl
@[simp] theorem State.pop_reg (s : State) (q : Reg) : (s.pop).reg q = s.reg q := rfl
@[simp] theorem State.pop_mAddr (s : State) : (s.pop).mAddr = s.mAddr := rfl
@[simp] theorem State.pop_entry (s : State) (j : BitVec 3) : (s.pop).entry j = s.entry j := rfl
@[simp] theorem State.pop_byteAt (s : State) (a : Addr) : (s.pop).byteAt a = s.byteAt a := rfl
@[simp] theorem State.pop_kindAt (s : State) (a : Addr) : (s.pop).kindAt a = s.kindAt a := rfl

/-! ## `s.enterInterrupt` -/

@[simp] theorem State.enterInterrupt_regs (s : State) : (s.enterInterrupt).regs = s.regs := rfl
@[simp] theorem State.enterInterrupt_flags (s : State) : (s.enterInterrupt).flags = s.flags := rfl
@[simp] theorem State.enterInterrupt_stk (s : State) : (s.enterInterrupt).stk = s.stk := rfl
@[simp] theorem State.enterInterrupt_sp (s : State) : (s.enterInterrupt).sp = s.sp := rfl
@[simp] theorem State.enterInterrupt_run (s : State) : (s.enterInterrupt).run = .running := rfl
@[simp] theorem State.enterInterrupt_intreq (s : State) : (s.enterInterrupt).intreq = false := rfl
@[simp] theorem State.enterInterrupt_mem (s : State) : (s.enterInterrupt).mem = s.mem := rfl
@[simp] theorem State.enterInterrupt_memMap (s : State) : (s.enterInterrupt).memMap = s.memMap := rfl
@[simp] theorem State.enterInterrupt_inputs (s : State) : (s.enterInterrupt).inputs = s.inputs := rfl
@[simp] theorem State.enterInterrupt_outputs (s : State) : (s.enterInterrupt).outputs = s.outputs := rfl
@[simp] theorem State.enterInterrupt_intByte (s : State) : (s.enterInterrupt).intByte = s.intByte := rfl
@[simp] theorem State.enterInterrupt_intSource (s : State) : (s.enterInterrupt).intSource = s.intSource := rfl
@[simp] theorem State.enterInterrupt_draws (s : State) : (s.enterInterrupt).draws = s.draws := rfl
@[simp] theorem State.enterInterrupt_depth (s : State) : (s.enterInterrupt).depth = s.depth := rfl
@[simp] theorem State.enterInterrupt_stackPolicy (s : State) : (s.enterInterrupt).stackPolicy = s.stackPolicy := rfl
@[simp] theorem State.enterInterrupt_reg (s : State) (q : Reg) : (s.enterInterrupt).reg q = s.reg q := rfl
@[simp] theorem State.enterInterrupt_mAddr (s : State) : (s.enterInterrupt).mAddr = s.mAddr := rfl
@[simp] theorem State.enterInterrupt_entry (s : State) (j : BitVec 3) : (s.enterInterrupt).entry j = s.entry j := rfl
@[simp] theorem State.enterInterrupt_byteAt (s : State) (a : Addr) : (s.enterInterrupt).byteAt a = s.byteAt a := rfl
@[simp] theorem State.enterInterrupt_kindAt (s : State) (a : Addr) : (s.enterInterrupt).kindAt a = s.kindAt a := rfl
@[simp] theorem State.enterInterrupt_pc (s : State) : (s.enterInterrupt).pc = s.pc := rfl

/-! ## `s.setDraws n` -/

@[simp] theorem State.setDraws_regs (s : State) (n : Nat) : (s.setDraws n).regs = s.regs := rfl
@[simp] theorem State.setDraws_flags (s : State) (n : Nat) : (s.setDraws n).flags = s.flags := rfl
@[simp] theorem State.setDraws_stk (s : State) (n : Nat) : (s.setDraws n).stk = s.stk := rfl
@[simp] theorem State.setDraws_sp (s : State) (n : Nat) : (s.setDraws n).sp = s.sp := rfl
@[simp] theorem State.setDraws_run (s : State) (n : Nat) : (s.setDraws n).run = s.run := rfl
@[simp] theorem State.setDraws_intreq (s : State) (n : Nat) : (s.setDraws n).intreq = s.intreq := rfl
@[simp] theorem State.setDraws_mem (s : State) (n : Nat) : (s.setDraws n).mem = s.mem := rfl
@[simp] theorem State.setDraws_memMap (s : State) (n : Nat) : (s.setDraws n).memMap = s.memMap := rfl
@[simp] theorem State.setDraws_inputs (s : State) (n : Nat) : (s.setDraws n).inputs = s.inputs := rfl
@[simp] theorem State.setDraws_outputs (s : State) (n : Nat) : (s.setDraws n).outputs = s.outputs := rfl
@[simp] theorem State.setDraws_intByte (s : State) (n : Nat) : (s.setDraws n).intByte = s.intByte := rfl
@[simp] theorem State.setDraws_intSource (s : State) (n : Nat) : (s.setDraws n).intSource = s.intSource := rfl
@[simp] theorem State.setDraws_draws (s : State) (n : Nat) : (s.setDraws n).draws = n := rfl
@[simp] theorem State.setDraws_depth (s : State) (n : Nat) : (s.setDraws n).depth = s.depth := rfl
@[simp] theorem State.setDraws_stackPolicy (s : State) (n : Nat) : (s.setDraws n).stackPolicy = s.stackPolicy := rfl
@[simp] theorem State.setDraws_reg (s : State) (n : Nat) (q : Reg) : (s.setDraws n).reg q = s.reg q := rfl
@[simp] theorem State.setDraws_mAddr (s : State) (n : Nat) : (s.setDraws n).mAddr = s.mAddr := rfl
@[simp] theorem State.setDraws_entry (s : State) (n : Nat) (j : BitVec 3) : (s.setDraws n).entry j = s.entry j := rfl
@[simp] theorem State.setDraws_byteAt (s : State) (n : Nat) (a : Addr) : (s.setDraws n).byteAt a = s.byteAt a := rfl
@[simp] theorem State.setDraws_kindAt (s : State) (n : Nat) (a : Addr) : (s.setDraws n).kindAt a = s.kindAt a := rfl
@[simp] theorem State.setDraws_pc (s : State) (n : Nat) : (s.setDraws n).pc = s.pc := rfl

/-! ## `s.portOut p v` -/

@[simp] theorem State.portOut_regs (s : State) (p : BitVec 5) (v : Byte) : (s.portOut p v).regs = s.regs := rfl
@[simp] theorem State.portOut_flags (s : State) (p : BitVec 5) (v : Byte) : (s.portOut p v).flags = s.flags := rfl
@[simp] theorem State.portOut_stk (s : State) (p : BitVec 5) (v : Byte) : (s.portOut p v).stk = s.stk := rfl
@[simp] theorem State.portOut_sp (s : State) (p : BitVec 5) (v : Byte) : (s.portOut p v).sp = s.sp := rfl
@[simp] theorem State.portOut_run (s : State) (p : BitVec 5) (v : Byte) : (s.portOut p v).run = s.run := rfl
@[simp] theorem State.portOut_intreq (s : State) (p : BitVec 5) (v : Byte) : (s.portOut p v).intreq = s.intreq := rfl
@[simp] theorem State.portOut_mem (s : State) (p : BitVec 5) (v : Byte) : (s.portOut p v).mem = s.mem := rfl
@[simp] theorem State.portOut_memMap (s : State) (p : BitVec 5) (v : Byte) : (s.portOut p v).memMap = s.memMap := rfl
@[simp] theorem State.portOut_inputs (s : State) (p : BitVec 5) (v : Byte) : (s.portOut p v).inputs = s.inputs := rfl
@[simp] theorem State.portOut_outputs (s : State) (p : BitVec 5) (v : Byte) : (s.portOut p v).outputs = s.outputs ++ [{ port := p, value := v }] := rfl
@[simp] theorem State.portOut_intByte (s : State) (p : BitVec 5) (v : Byte) : (s.portOut p v).intByte = s.intByte := rfl
@[simp] theorem State.portOut_intSource (s : State) (p : BitVec 5) (v : Byte) : (s.portOut p v).intSource = s.intSource := rfl
@[simp] theorem State.portOut_draws (s : State) (p : BitVec 5) (v : Byte) : (s.portOut p v).draws = s.draws := rfl
@[simp] theorem State.portOut_depth (s : State) (p : BitVec 5) (v : Byte) : (s.portOut p v).depth = s.depth := rfl
@[simp] theorem State.portOut_stackPolicy (s : State) (p : BitVec 5) (v : Byte) : (s.portOut p v).stackPolicy = s.stackPolicy := rfl
@[simp] theorem State.portOut_reg (s : State) (p : BitVec 5) (v : Byte) (q : Reg) : (s.portOut p v).reg q = s.reg q := rfl
@[simp] theorem State.portOut_mAddr (s : State) (p : BitVec 5) (v : Byte) : (s.portOut p v).mAddr = s.mAddr := rfl
@[simp] theorem State.portOut_entry (s : State) (p : BitVec 5) (v : Byte) (j : BitVec 3) : (s.portOut p v).entry j = s.entry j := rfl
@[simp] theorem State.portOut_byteAt (s : State) (p : BitVec 5) (v : Byte) (a : Addr) : (s.portOut p v).byteAt a = s.byteAt a := rfl
@[simp] theorem State.portOut_kindAt (s : State) (p : BitVec 5) (v : Byte) (a : Addr) : (s.portOut p v).kindAt a = s.kindAt a := rfl
@[simp] theorem State.portOut_pc (s : State) (p : BitVec 5) (v : Byte) : (s.portOut p v).pc = s.pc := rfl

/-! ## A register read after a register write -/

theorem Regs.get_set (x : Regs) (r q : Reg) (v : Byte) : (x.set r v).get q = if q = r then v else x.get q := by
  cases r <;> cases q <;> rfl

theorem State.reg_setReg (s : State) (r q : Reg) (v : Byte) : (s.setReg r v).reg q = if q = r then v else s.reg q :=
  Regs.get_set s.regs r q v

@[simp] theorem State.reg_setReg_self (s : State) (r : Reg) (v : Byte) : (s.setReg r v).reg r = v := by
  simp [State.reg_setReg]

theorem State.reg_setReg_of_ne (s : State) {r q : Reg} (v : Byte) (h : q ≠ r) : (s.setReg r v).reg q = s.reg q := by
  simp [State.reg_setReg, h]

/-! ## A stack entry read after a stack write -/

theorem State.entry_setEntry (s : State) (k j : BitVec 3) (v : Addr) :
    (s.setEntry k v).entry j = if j = k then v else s.entry j := by
  simp only [State.entry, State.setEntry, Vector.getElem_set, BitVec.toNat_inj, eq_comm]

theorem State.entry_setPc (s : State) (j : BitVec 3) (v : Addr) :
    (s.setPc v).entry j = if j = s.sp then v else s.entry j := State.entry_setEntry s s.sp j v

theorem State.entry_push (s : State) (j : BitVec 3) (v : Addr) :
    (s.push v).entry j = if j = s.sp + 1 then v else s.entry j := State.entry_setEntry (s.setLevel (s.sp + 1) (s.depth + 1)) (s.sp + 1) j v

@[simp] theorem State.pc_setPc (s : State) (v : Addr) : (s.setPc v).pc = v := by
  simp [State.pc, State.entry_setPc]

@[simp] theorem State.pc_push (s : State) (v : Addr) : (s.push v).pc = v := by
  simp [State.pc, State.entry_push]

theorem State.pc_pop (s : State) : s.pop.pc = s.entry (s.sp - 1) := rfl

/-- A return right after a call exposes the entry the call left behind (10_state.md R31). -/
theorem State.pc_pop_push (s : State) (v : Addr) : (s.push v).pop.pc = s.pc := by
  simp [State.pc, State.entry_push]

end Sys2Proof.Machine
end

