-- ==== Sys2Proof/Laws/Ops.lean ====
section
/-! SUPPORT. What each shared operation can do, said once. -/

namespace Sys2Proof.Machine

/-! ## Memory accesses -/

/-- A read answers the byte held and changes nothing, or, at an absent address, answers and uses up the next free value. -/
theorem State.memRead_cases (s : State) (a : Addr) :
    (s.kindAt a ≠ .absent ∧ s.memRead a = (s.byteAt a, s))
      ∨ (s.kindAt a = .absent ∧ s.memRead a = (Config.freeByte s.draws, s.setDraws (s.draws + 1))) := by
  unfold State.memRead
  cases h : s.kindAt a <;> simp [State.draw]

theorem State.memRead_of_present (s : State) {a : Addr} (h : s.kindAt a ≠ .absent) : s.memRead a = (s.byteAt a, s) := by
  rcases s.memRead_cases a with ⟨_, e⟩ | ⟨e, _⟩
  · exact e
  · exact absurd e h

theorem State.memRead_of_absent (s : State) {a : Addr} (h : s.kindAt a = .absent) : s.memRead a = s.draw := by
  simp [State.memRead, h]

/-- A read changes at most the count of draws. -/
theorem State.memRead_snd (s : State) (a : Addr) : ∃ n, (s.memRead a).2 = s.setDraws n := by
  rcases s.memRead_cases a with ⟨_, e⟩ | ⟨_, e⟩
  · exact ⟨s.draws, by rw [e]; rfl⟩
  · exact ⟨s.draws + 1, by rw [e]⟩

/-- A write changes the memory list of a RAM address and nothing else. -/
theorem State.memWrite_eq (s : State) (a : Addr) (v : Byte) :
    s.memWrite a v = { s with mem := if s.kindAt a = .ram then s.mem.write a.toNat v else s.mem } := by
  unfold State.memWrite
  cases h : s.kindAt a <;> simp

/-- What every address holds after a write (20_memory.md R55). -/
theorem State.memWrite_byteAt (s : State) (a b : Addr) (v : Byte) :
    (s.memWrite a v).byteAt b = if s.kindAt a = .ram ∧ b = a then v else s.byteAt b := by
  rw [State.memWrite_eq]
  by_cases h : s.kindAt a = .ram
  · simp [State.byteAt, h, Memory.read_write, BitVec.toNat_inj]
  · simp [State.byteAt, h]

@[simp] theorem State.memWrite_memMap (s : State) (a : Addr) (v : Byte) : (s.memWrite a v).memMap = s.memMap := by
  rw [State.memWrite_eq]

@[simp] theorem State.memWrite_kindAt (s : State) (a b : Addr) (v : Byte) : (s.memWrite a v).kindAt b = s.kindAt b := by
  simp [State.kindAt]

/-! ## Instruction fetch -/

/-- A fetch from a present address gives the byte held there and advances `pc` (10_state.md R30). -/
theorem State.fetch_of_present (s : State) (h : s.kindAt s.pc ≠ .absent) :
    s.fetch = (s.byteAt s.pc, s.setPc (s.pc + 1)) := by
  simp [State.fetch, State.memRead_of_present s h]

/-- A fetch changes `pc` and at most the count of draws. -/
theorem State.fetch_snd (s : State) : ∃ n, s.fetch.2 = (s.setDraws n).setPc (s.pc + 1) := by
  obtain ⟨n, e⟩ := s.memRead_snd s.pc
  exact ⟨n, by simp [State.fetch, e]⟩

/-- The rest of an instruction is some instruction that decodes with the first byte `op`, and fetching it changes `pc` and at
most the count of draws. -/
theorem State.fetchRest_spec (s : State) (op : Byte) :
    ∃ b2 b3 n pc, s.fetchRest op = (decodeWith op b2 b3, (s.setDraws n).setPc pc) := by
  unfold State.fetchRest
  split
  · exact ⟨0, 0, s.draws, s.pc, by simp [State.setPc, State.setEntry, State.pc, State.entry, State.setDraws]⟩
  · obtain ⟨n, e⟩ := s.fetch_snd
    exact ⟨s.fetch.1, 0, n, s.pc + 1, by simp only [e]⟩
  · obtain ⟨n, e⟩ := s.fetch_snd
    obtain ⟨k, f⟩ := s.fetch.2.fetch_snd
    refine ⟨s.fetch.1, s.fetch.2.fetch.1, k, s.fetch.2.pc + 1, congrArg (Prod.mk _) ?_⟩
    rw [f, e]
    simp [State.setPc, State.setEntry, State.setDraws]

/-! ## The interrupt -/

/-- The environment's action touches the interrupt fields only. -/
theorem State.pollInt_eq (s : State) :
    s.pollInt = { s with
      intSource := s.intSource.tail
      intreq := match s.intSource with | some _ :: _ => true | _ => s.intreq
      intByte := match s.intSource with | some j :: _ => j | _ => s.intByte } := by
  unfold State.pollInt
  split <;> simp_all
  cases s; simp_all

/-! ## Ports -/

theorem State.stream_setStream (s : State) (p q : BitVec 3) (bytes : List Byte) :
    (s.setStream p bytes).stream q = if q = p then bytes else s.stream q := by
  simp only [State.stream, State.setStream, Vector.getElem_set, BitVec.toNat_inj, eq_comm]

/-- A port read gives the head of the port's stream and drops it, or a free value when the stream is empty. -/
theorem State.portIn_cases (s : State) (p : BitVec 3) :
    (∃ v rest, s.stream p = v :: rest ∧ s.portIn p = (v, s.setStream p rest))
      ∨ (s.stream p = [] ∧ s.portIn p = (Config.freeByte s.draws, s.setDraws (s.draws + 1))) := by
  unfold State.portIn
  split
  · exact .inr ⟨by assumption, rfl⟩
  · exact .inl ⟨_, _, by assumption, rfl⟩

/-! ## The index register and accumulator groups -/

/-- A stepped register: the value, its zero, sign and parity, and the carry kept. -/
theorem State.stepReg_eq (s : State) (r : Reg) (v : Byte) :
    s.stepReg r v = { s with regs := s.regs.set r v, flags := s.flags.setZSP v } := rfl

theorem State.aluResult_eq (s : State) (v : Byte) (carry : Bool) :
    s.aluResult v carry = { s with regs := s.regs.set .a v, flags := resultFlags carry v } := rfl

@[simp] theorem State.stepReg_reg (s : State) (r q : Reg) (v : Byte) :
    (s.stepReg r v).reg q = if q = r then v else s.reg q := State.reg_setReg s r q v

@[simp] theorem State.aluResult_reg (s : State) (q : Reg) (v : Byte) (carry : Bool) :
    (s.aluResult v carry).reg q = if q = .a then v else s.reg q := State.reg_setReg s .a q v

@[simp] theorem State.aluRotate_reg (s : State) (q : Reg) (x : Byte × Bool) :
    (s.aluRotate x).reg q = if q = .a then x.1 else s.reg q := State.reg_setReg s .a q x.1

theorem State.aluCompare_eq (s : State) (v : Byte) :
    s.aluCompare v = { s with flags := resultFlags (sub8 (s.reg .a) v false).2 (sub8 (s.reg .a) v false).1 } := rfl

theorem State.aluRotate_eq (s : State) (x : Byte × Bool) :
    s.aluRotate x = { s with regs := s.regs.set .a x.1, flags := s.flags.setCarry x.2 } := rfl

/-! ## Transfers -/

theorem State.jumpIf_cases (s : State) (taken : Bool) (t : Addr) :
    (taken = true ∧ s.jumpIf taken t = s.setPc t) ∨ (taken = false ∧ s.jumpIf taken t = s) := by
  cases taken <;> simp [State.jumpIf]

/-- A push answers the pushed state, or, where the policy is `fault` and the depth 7, its refusal. -/
theorem State.tryPush_cases (s : State) (t : Addr) :
    (¬ (s.stackPolicy = .fault ∧ s.depth = 7) ∧ s.tryPush t = .next (s.push t))
      ∨ ((s.stackPolicy = .fault ∧ s.depth = 7) ∧ s.tryPush t = .refused .pushAtDepthSeven) := by
  unfold State.tryPush
  split
  · exact .inr ⟨by assumption, rfl⟩
  · exact .inl ⟨by assumption, rfl⟩

/-- A pop answers the popped state, or, where the policy is `fault` and the depth 0, its refusal. -/
theorem State.tryPop_cases (s : State) :
    (¬ (s.stackPolicy = .fault ∧ s.depth = 0) ∧ s.tryPop = .next s.pop)
      ∨ ((s.stackPolicy = .fault ∧ s.depth = 0) ∧ s.tryPop = .refused .popAtDepthZero) := by
  unfold State.tryPop
  split
  · exact .inr ⟨by assumption, rfl⟩
  · exact .inl ⟨by assumption, rfl⟩

/-- Where the policy is `wrap` every push is made. -/
theorem State.tryPush_of_wrap (s : State) (t : Addr) (h : s.stackPolicy = .wrap) : s.tryPush t = .next (s.push t) := by
  simp [State.tryPush, h]

/-- Where the policy is `wrap` every pop is made. -/
theorem State.tryPop_of_wrap (s : State) (h : s.stackPolicy = .wrap) : s.tryPop = .next s.pop := by
  simp [State.tryPop, h]

theorem State.callIf_cases (s : State) (taken : Bool) (t : Addr) :
    (taken = true ∧ s.callIf taken t = s.tryPush t) ∨ (taken = false ∧ s.callIf taken t = .next s) := by
  cases taken <;> simp [State.callIf]

theorem State.returnIf_cases (s : State) (taken : Bool) :
    (taken = true ∧ s.returnIf taken = s.tryPop) ∨ (taken = false ∧ s.returnIf taken = .next s) := by
  cases taken <;> simp [State.returnIf]

end Sys2Proof.Machine
end

