-- ==== Sys2Proof/Laws/PerInstr.lean ====
section
/-! SUPPORT. A statement about every instruction, made one constructor at a time. -/

namespace Sys2Proof.Laws.EncodeLength

/-- An instruction is encoded in as many bytes as its first byte asks for (30_encoding.md R89). -/
def Statement (i : Instr) : Prop := ∃ op rest, encode i = op :: rest ∧ instrLength op = rest.length + 1

theorem of_one {i : Instr} {g : BitVec 2} {y w : BitVec 3} (e : encode i = encode1 g y w) (h : instrLength (opByte g y w) = 1) :
    Statement i := ⟨_, _, e, h⟩

theorem of_two {i : Instr} {y w : BitVec 3} {data : Byte} (e : encode i = encode2 0b00#2 y w data)
    (h : instrLength (opByte 0b00#2 y w) = 2) : Statement i := ⟨_, _, e, h⟩

theorem of_three {i : Instr} {y w : BitVec 3} {t : Addr} (e : encode i = encode3 y w t)
    (h : instrLength (opByte 0b01#2 y w) = 3) : Statement i := ⟨_, _, e, h⟩

theorem movRR (dst : Reg) (src : Reg) : Statement (.movRR dst src) := of_one rfl (by cases dst <;> cases src <;> decide)
theorem movRM (dst : Reg) : Statement (.movRM dst) := of_one rfl (by cases dst <;> decide)
theorem movMR (src : Reg) : Statement (.movMR src) := of_one rfl (by cases src <;> decide)
theorem mviR (dst : Reg) (data : Byte) : Statement (.mviR dst data) := of_two rfl (by cases dst <;> decide)
theorem mviM (data : Byte) : Statement (.mviM data) := of_two rfl (by decide)
theorem inrR (r : Reg) : Statement (.inrR r) := of_one rfl (by cases r <;> decide)
theorem dcrR (r : Reg) : Statement (.dcrR r) := of_one rfl (by cases r <;> decide)
theorem addR (src : Reg) : Statement (.addR src) := of_one rfl (by cases src <;> decide)
theorem addM : Statement (.addM) := of_one rfl (by decide)
theorem adi (data : Byte) : Statement (.adi data) := of_two rfl (by decide)
theorem adcR (src : Reg) : Statement (.adcR src) := of_one rfl (by cases src <;> decide)
theorem adcM : Statement (.adcM) := of_one rfl (by decide)
theorem aci (data : Byte) : Statement (.aci data) := of_two rfl (by decide)
theorem subR (src : Reg) : Statement (.subR src) := of_one rfl (by cases src <;> decide)
theorem subM : Statement (.subM) := of_one rfl (by decide)
theorem sui (data : Byte) : Statement (.sui data) := of_two rfl (by decide)
theorem sbbR (src : Reg) : Statement (.sbbR src) := of_one rfl (by cases src <;> decide)
theorem sbbM : Statement (.sbbM) := of_one rfl (by decide)
theorem sbi (data : Byte) : Statement (.sbi data) := of_two rfl (by decide)
theorem anaR (src : Reg) : Statement (.anaR src) := of_one rfl (by cases src <;> decide)
theorem anaM : Statement (.anaM) := of_one rfl (by decide)
theorem ani (data : Byte) : Statement (.ani data) := of_two rfl (by decide)
theorem xraR (src : Reg) : Statement (.xraR src) := of_one rfl (by cases src <;> decide)
theorem xraM : Statement (.xraM) := of_one rfl (by decide)
theorem xri (data : Byte) : Statement (.xri data) := of_two rfl (by decide)
theorem oraR (src : Reg) : Statement (.oraR src) := of_one rfl (by cases src <;> decide)
theorem oraM : Statement (.oraM) := of_one rfl (by decide)
theorem ori (data : Byte) : Statement (.ori data) := of_two rfl (by decide)
theorem cmpR (src : Reg) : Statement (.cmpR src) := of_one rfl (by cases src <;> decide)
theorem cmpM : Statement (.cmpM) := of_one rfl (by decide)
theorem cpi (data : Byte) : Statement (.cpi data) := of_two rfl (by decide)
theorem rlc : Statement (.rlc) := of_one rfl (by decide)
theorem rrc : Statement (.rrc) := of_one rfl (by decide)
theorem ral : Statement (.ral) := of_one rfl (by decide)
theorem rar : Statement (.rar) := of_one rfl (by decide)
theorem jmp (target : Addr) : Statement (.jmp target) := of_three rfl (by decide)
theorem jnc (target : Addr) : Statement (.jnc target) := of_three rfl (by decide)
theorem jnz (target : Addr) : Statement (.jnz target) := of_three rfl (by decide)
theorem jp (target : Addr) : Statement (.jp target) := of_three rfl (by decide)
theorem jpo (target : Addr) : Statement (.jpo target) := of_three rfl (by decide)
theorem jc (target : Addr) : Statement (.jc target) := of_three rfl (by decide)
theorem jz (target : Addr) : Statement (.jz target) := of_three rfl (by decide)
theorem jm (target : Addr) : Statement (.jm target) := of_three rfl (by decide)
theorem jpe (target : Addr) : Statement (.jpe target) := of_three rfl (by decide)
theorem call (target : Addr) : Statement (.call target) := of_three rfl (by decide)
theorem cnc (target : Addr) : Statement (.cnc target) := of_three rfl (by decide)
theorem cnz (target : Addr) : Statement (.cnz target) := of_three rfl (by decide)
theorem cp (target : Addr) : Statement (.cp target) := of_three rfl (by decide)
theorem cpo (target : Addr) : Statement (.cpo target) := of_three rfl (by decide)
theorem cc (target : Addr) : Statement (.cc target) := of_three rfl (by decide)
theorem cz (target : Addr) : Statement (.cz target) := of_three rfl (by decide)
theorem cm (target : Addr) : Statement (.cm target) := of_three rfl (by decide)
theorem cpe (target : Addr) : Statement (.cpe target) := of_three rfl (by decide)
theorem ret : Statement (.ret) := of_one rfl (by decide)
theorem rnc : Statement (.rnc) := of_one rfl (by decide)
theorem rnz : Statement (.rnz) := of_one rfl (by decide)
theorem rp : Statement (.rp) := of_one rfl (by decide)
theorem rpo : Statement (.rpo) := of_one rfl (by decide)
theorem rc : Statement (.rc) := of_one rfl (by decide)
theorem rz : Statement (.rz) := of_one rfl (by decide)
theorem rm : Statement (.rm) := of_one rfl (by decide)
theorem rpe : Statement (.rpe) := of_one rfl (by decide)
theorem rst (n : BitVec 3) : Statement (.rst n) := of_one rfl (by revert n; decide)
theorem inP (port : BitVec 3) : Statement (.inP port) := ⟨_, _, rfl, by revert port; decide⟩
theorem outP (port : BitVec 5) : Statement (.outP port) := ⟨_, _, rfl, by revert port; decide⟩
theorem hlt : Statement (.hlt) := of_one rfl (by decide)
theorem hltFF : Statement (.hltFF) := of_one rfl (by decide)
theorem undef22 : Statement (.undef22) := ⟨_, _, rfl, by decide⟩
theorem undef2A : Statement (.undef2A) := ⟨_, _, rfl, by decide⟩
theorem undef32 : Statement (.undef32) := ⟨_, _, rfl, by decide⟩
theorem undef3A : Statement (.undef3A) := ⟨_, _, rfl, by decide⟩
theorem undef38 : Statement (.undef38) := ⟨_, _, rfl, by decide⟩
theorem undef39 : Statement (.undef39) := ⟨_, _, rfl, by decide⟩

end Sys2Proof.Laws.EncodeLength
end

