-- ==== Sys2Proof/Laws/Step.lean ====
section
/-! SUPPORT. What one instruction and one step can do, said once. -/

namespace Sys2Proof.Machine

/-- Everything the next state of the instruction `i` can be. -/
inductive Effect (i : Instr) (s : State) : State → Prop where
  /-- Registers and flags written, after no access, a read of M, or a port read. -/
  | compute (u : State) (x : Regs) (f : Flags) (access : u = s ∨ u = s.readM.2 ∨ ∃ p, u = (s.portIn p).2) :
      Effect i s { u with regs := x, flags := f }
  /-- A byte stored at M, by `MOV M,r` or `MVI M`. -/
  | store (v : Byte) (storing : i = .mviM v ∨ ∃ src, i = .movMR src ∧ v = s.reg src) : Effect i s (s.writeM v)
  /-- A jump. -/
  | jump (t : Addr) : Effect i s (s.setPc t)
  /-- A call or a restart, where the stack policy lets it. -/
  | call (t : Addr) (allowed : ¬ (s.stackPolicy = .fault ∧ s.depth = 7)) : Effect i s (s.push t)
  /-- A return, where the stack policy lets it. -/
  | ret (allowed : ¬ (s.stackPolicy = .fault ∧ s.depth = 0)) : Effect i s s.pop
  /-- A transfer that is not made. -/
  | nothing : Effect i s s
  /-- An output. -/
  | output (p : BitVec 5) (out : i = .outP p) : Effect i s (s.portOut p (s.reg .a))
  /-- A halt. -/
  | halt : Effect i s (s.setRun .stopped)

theorem Effect.of_compute {i : Instr} {s t : State} (x : Regs) (f : Flags) (h : t = { s with regs := x, flags := f }) :
    Effect i s t := h ▸ .compute s x f (.inl rfl)

theorem Effect.of_readM {i : Instr} {s t : State} (x : Regs) (f : Flags)
    (h : t = { s.readM.2 with regs := x, flags := f }) : Effect i s t :=
  h ▸ .compute s.readM.2 x f (.inr (.inl rfl))

theorem Effect.of_jumpIf (i : Instr) (s : State) (taken : Bool) (t : Addr) : Effect i s (s.jumpIf taken t) := by
  rcases s.jumpIf_cases taken t with ⟨_, e⟩ | ⟨_, e⟩ <;> rw [e]
  · exact .jump t
  · exact .nothing

theorem Effect.of_tryPush (i : Instr) {s t : State} {a : Addr} (h : s.tryPush a = .next t) : Effect i s t := by
  rcases s.tryPush_cases a with ⟨p, e⟩ | ⟨_, e⟩ <;> rw [e] at h <;> cases h
  exact .call a p

theorem Effect.of_tryPop (i : Instr) {s t : State} (h : s.tryPop = .next t) : Effect i s t := by
  rcases s.tryPop_cases with ⟨p, e⟩ | ⟨_, e⟩ <;> rw [e] at h <;> cases h
  exact .ret p

theorem Effect.of_callIf (i : Instr) {s t : State} {taken : Bool} {a : Addr} (h : s.callIf taken a = .next t) : Effect i s t := by
  rcases s.callIf_cases taken a with ⟨_, e⟩ | ⟨_, e⟩ <;> rw [e] at h
  · exact .of_tryPush i h
  · cases h
    exact .nothing

theorem Effect.of_returnIf (i : Instr) {s t : State} {taken : Bool} (h : s.returnIf taken = .next t) : Effect i s t := by
  rcases s.returnIf_cases taken with ⟨_, e⟩ | ⟨_, e⟩ <;> rw [e] at h
  · exact .of_tryPop i h
  · cases h
    exact .nothing

/-- Every next state of an instruction is one of the effects above. -/
theorem exec_effect {i : Instr} {s t : State} (h : exec i s = .next t) : Effect i s t := by
  cases i
  case call target => exact .of_tryPush _ h
  case ret => exact .of_tryPop _ h
  case rst n => exact .of_tryPush _ h
  case cnc a => exact .of_callIf _ h
  case cnz a => exact .of_callIf _ h
  case cp a => exact .of_callIf _ h
  case cpo a => exact .of_callIf _ h
  case cc a => exact .of_callIf _ h
  case cz a => exact .of_callIf _ h
  case cm a => exact .of_callIf _ h
  case cpe a => exact .of_callIf _ h
  case rnc => exact .of_returnIf _ h
  case rnz => exact .of_returnIf _ h
  case rp => exact .of_returnIf _ h
  case rpo => exact .of_returnIf _ h
  case rc => exact .of_returnIf _ h
  case rz => exact .of_returnIf _ h
  case rm => exact .of_returnIf _ h
  case rpe => exact .of_returnIf _ h
  all_goals cases h
  case movMR src => exact .store _ (.inr ⟨src, rfl, rfl⟩)
  case mviM data => exact .store _ (.inl rfl)
  case jmp target => exact .jump _
  case inP port => exact .compute _ _ _ (.inr (.inr ⟨port, rfl⟩))
  case outP port => exact .output _ rfl
  case hlt => exact .halt
  case hltFF => exact .halt
  all_goals first
    | exact .of_jumpIf _ _ _ _
    | exact .of_compute _ _ rfl
    | exact .of_readM _ _ rfl

/-- Every way an instruction can be refused: an undefined byte, or a push or a pop that the stack policy `fault` forbids. -/
theorem exec_refused_cases {i : Instr} {s : State} {r : Refusal} (h : exec i s = .refused r) :
    (∃ op, r = .undefinedOpcode op)
      ∨ (r = .pushAtDepthSeven ∧ s.stackPolicy = .fault ∧ s.depth = 7)
      ∨ (r = .popAtDepthZero ∧ s.stackPolicy = .fault ∧ s.depth = 0) := by
  have push : ∀ a, s.tryPush a = .refused r → r = .pushAtDepthSeven ∧ s.stackPolicy = .fault ∧ s.depth = 7 := by
    intro a e
    rcases s.tryPush_cases a with ⟨_, f⟩ | ⟨p, f⟩ <;> rw [f] at e <;> cases e
    exact ⟨rfl, p⟩
  have pop : s.tryPop = .refused r → r = .popAtDepthZero ∧ s.stackPolicy = .fault ∧ s.depth = 0 := by
    intro e
    rcases s.tryPop_cases with ⟨_, f⟩ | ⟨p, f⟩ <;> rw [f] at e <;> cases e
    exact ⟨rfl, p⟩
  have callIf : ∀ c a, s.callIf c a = .refused r → r = .pushAtDepthSeven ∧ s.stackPolicy = .fault ∧ s.depth = 7 := by
    intro c a e
    rcases s.callIf_cases c a with ⟨_, f⟩ | ⟨_, f⟩ <;> rw [f] at e
    · exact push a e
    · cases e
  have returnIf : ∀ c, s.returnIf c = .refused r → r = .popAtDepthZero ∧ s.stackPolicy = .fault ∧ s.depth = 0 := by
    intro c e
    rcases s.returnIf_cases c with ⟨_, f⟩ | ⟨_, f⟩ <;> rw [f] at e
    · exact pop e
    · cases e
  cases i <;> first
    | exact .inr (.inl (push _ h))
    | exact .inr (.inr (pop h))
    | exact .inr (.inl (callIf _ _ h))
    | exact .inr (.inr (returnIf _ h))
    | (cases h; done)
    | (cases h; exact .inl ⟨_, rfl⟩)

/-- A step that answers a next state idled in STOPPED, or ran one instruction; the environment acted after it. -/
theorem step_next_cases {s t : State} (h : step s = .next t) :
    (s.nextInstr = none ∧ t = s.pollInt)
      ∨ ∃ i u v, s.nextInstr = some (i, u) ∧ exec i u = .next v ∧ t = v.pollInt := by
  unfold step at h
  split at h
  · rename_i e
    cases h
    exact .inl ⟨e, rfl⟩
  · rename_i i u e
    cases hx : exec i u with
    | next v =>
      rw [hx] at h
      cases h
      exact .inr ⟨i, u, v, e, hx, rfl⟩
    | fault r => cases r
    | refused r =>
      rw [hx] at h
      cases h

/-- The instruction of a step and the state it runs in: the interrupt's, or the one fetched. -/
theorem nextInstr_cases {s u : State} {i : Instr} (h : s.nextInstr = some (i, u)) :
    (s.intreq = true ∧ (i, u) = s.enterInterrupt.fetchRest s.intByte)
      ∨ (s.intreq = false ∧ s.run = .running ∧ (i, u) = s.fetchInstr) := by
  unfold State.nextInstr at h
  split at h
  · rename_i e
    exact .inl ⟨e, (Option.some.inj h).symm⟩
  · rename_i e
    split at h
    · rename_i r
      exact .inr ⟨by simpa using e, r, (Option.some.inj h).symm⟩
    · cases h

/-- No step ends in a fault (60_exceptions.md R250). -/
theorem step_ne_fault (s : State) (r : Fault) : step s ≠ .fault r := by cases r

end Sys2Proof.Machine
end

