-- ==== Sys2Proof/Tests/Slice0.lean ====
section
/-! SUPPORT. The model's own tests: ill-formed terms, instruction bytes written out from 30_encoding.md R90 to R93, and one step
on small states. Expected results come from 95_test_vectors.md (V numbers) and the rules named. -/

namespace Sys2Proof.Tests

open Sys2Proof.Machine

/-! ## Well-formedness -/

theorem test_inrR_a_ill_formed : (Instr.inrR .a).wellFormed = false := by decide
theorem test_dcrR_a_ill_formed : (Instr.dcrR .a).wellFormed = false := by decide
theorem test_outP_7_ill_formed : (Instr.outP 7).wellFormed = false := by decide
theorem test_outP_8_well_formed : (Instr.outP 8).wellFormed = true := by decide

/-! ## Decoding: bytes written out from the spec's encodings -/

/-- R90, R93. -/
theorem test_decode_index_register :
    [[0b11000001], [0b11101110], [0b11010111], [0b11111100], [0b00110110, 0xF0], [0b00111110, 0x99], [0b00001000], [0b00101001]].map decode
      = [.ok (.movRR .a .b, []), .ok (.movRR .h .l, []), .ok (.movRM .c, []), .ok (.movMR .e, []), .ok (.mviR .l 0xF0, []), .ok (.mviM 0x99, []), .ok (.inrR .b, []), .ok (.dcrR .h, [])] := by decide

/-- R92. -/
theorem test_decode_alu_register :
    [[0b10000011], [0b10001011], [0b10010011], [0b10011011], [0b10100011], [0b10101011], [0b10110011], [0b10111011]].map decode
      = [.ok (.addR .d, []), .ok (.adcR .d, []), .ok (.subR .d, []), .ok (.sbbR .d, []), .ok (.anaR .d, []), .ok (.xraR .d, []), .ok (.oraR .d, []), .ok (.cmpR .d, [])] := by decide

/-- R92. -/
theorem test_decode_alu_memory :
    [[0b10000111], [0b10001111], [0b10010111], [0b10011111], [0b10100111], [0b10101111], [0b10110111], [0b10111111]].map decode
      = [.ok (.addM, []), .ok (.adcM, []), .ok (.subM, []), .ok (.sbbM, []), .ok (.anaM, []), .ok (.xraM, []), .ok (.oraM, []), .ok (.cmpM, [])] := by decide

/-- R90. -/
theorem test_decode_alu_immediate :
    [[0b00000100, 0x5A], [0b00001100, 0x5A], [0b00010100, 0x5A], [0b00011100, 0x5A], [0b00100100, 0x5A], [0b00101100, 0x5A], [0b00110100, 0x5A], [0b00111100, 0x5A]].map decode
      = [.ok (.adi 0x5A, []), .ok (.aci 0x5A, []), .ok (.sui 0x5A, []), .ok (.sbi 0x5A, []), .ok (.ani 0x5A, []), .ok (.xri 0x5A, []), .ok (.ori 0x5A, []), .ok (.cpi 0x5A, [])] := by decide

/-- R90. -/
theorem test_decode_rotates :
    [[0b00000010], [0b00001010], [0b00010010], [0b00011010]].map decode
      = [.ok (.rlc, []), .ok (.rrc, []), .ok (.ral, []), .ok (.rar, [])] := by decide

/-- R91. -/
theorem test_decode_jumps :
    [[0b01000100, 0x34, 0x12], [0b01111100, 0x34, 0xD2], [0b01000000, 0x34, 0x12], [0b01001000, 0x34, 0x12], [0b01010000, 0x34, 0x12], [0b01011000, 0x34, 0x12], [0b01100000, 0x34, 0x12], [0b01101000, 0x34, 0x12], [0b01110000, 0x34, 0x12], [0b01111000, 0x34, 0x12]].map decode
      = [.ok (.jmp 0x1234, []), .ok (.jmp 0x1234, []), .ok (.jnc 0x1234, []), .ok (.jnz 0x1234, []), .ok (.jp 0x1234, []), .ok (.jpo 0x1234, []), .ok (.jc 0x1234, []), .ok (.jz 0x1234, []), .ok (.jm 0x1234, []), .ok (.jpe 0x1234, [])] := by decide

/-- R91. -/
theorem test_decode_calls :
    [[0b01000110, 0xFF, 0x3F], [0b01101110, 0x00, 0x03], [0b01000010, 0x00, 0x03], [0b01001010, 0x00, 0x03], [0b01010010, 0x00, 0x03], [0b01011010, 0x00, 0x03], [0b01100010, 0x00, 0x03], [0b01101010, 0x00, 0x03], [0b01110010, 0x00, 0x03], [0b01111010, 0x00, 0x03]].map decode
      = [.ok (.call 0x3FFF, []), .ok (.call 0x0300, []), .ok (.cnc 0x0300, []), .ok (.cnz 0x0300, []), .ok (.cp 0x0300, []), .ok (.cpo 0x0300, []), .ok (.cc 0x0300, []), .ok (.cz 0x0300, []), .ok (.cm 0x0300, []), .ok (.cpe 0x0300, [])] := by decide

/-- R90. -/
theorem test_decode_returns :
    [[0b00000111], [0b00111111], [0b00000011], [0b00001011], [0b00010011], [0b00011011], [0b00100011], [0b00101011], [0b00110011], [0b00111011]].map decode
      = [.ok (.ret, []), .ok (.ret, []), .ok (.rnc, []), .ok (.rnz, []), .ok (.rp, []), .ok (.rpo, []), .ok (.rc, []), .ok (.rz, []), .ok (.rm, []), .ok (.rpe, [])] := by decide

/-- R90, R91. -/
theorem test_decode_restart_and_ports :
    [[0b00011101], [0b01000111], [0b01001111], [0b01010001], [0b01111111]].map decode
      = [.ok (.rst 3, []), .ok (.inP 3, []), .ok (.inP 7, []), .ok (.outP 8, []), .ok (.outP 31, [])] := by decide

/-- R90, R93, R96. -/
theorem test_decode_halt :
    [[0b00000000], [0b00000001], [0b11111111]].map decode
      = [.ok (.hlt, []), .ok (.hlt, []), .ok (.hltFF, [])] := by decide

/-- R95. -/
theorem test_decode_undefined :
    [[0b00100010], [0b00101010], [0b00110010], [0b00111010], [0b00111000], [0b00111001]].map decode
      = [.ok (.undef22, []), .ok (.undef2A, []), .ok (.undef32, []), .ok (.undef3A, []), .ok (.undef38, []), .ok (.undef39, [])] := by decide

theorem test_decode_truncated : decode [0x44, 0x34] = .error (.truncated 0x44) := by decide
theorem test_decode_no_bytes : decode [] = .error .noBytes := by decide
theorem test_decodeTableWord_jmp : decodeTableWord 24 0x123444 = some (.jmp 0x1234) := by decide
theorem test_decodeTableWord_short : decodeTableWord 8 0x44 = some (.jmp 0) := by decide

/-! ## One step -/

/-- RUNNING, nothing pending, nothing scheduled. -/
def base : State := { State.reset with run := .running, intSource := [] }

/-- The bytes at `pc`, and `pc` there. -/
def placed (s : State) (pc : Addr) (bytes : List Byte) : State := (s.setPc pc).placeBytes pc bytes

/-- What holds of the next state. -/
def holds (r : Result) (p : State → Bool) : Bool :=
  match r with
  | .next t => p t
  | .fault _ => false
  | .refused _ => false

/-- What holds after one step. -/
def after (s : State) (p : State → Bool) : Bool := holds (step s) p

/-- V1. -/
theorem test_movRR :
    after (placed { base with regs := ⟨0x00, 0x5A, 0x00, 0x00, 0x00, 0x00, 0x00⟩, flags := ⟨true, false, true, false⟩ } 0x0200 [0xC1]) (fun t => t.regs == ⟨0x5A, 0x5A, 0x00, 0x00, 0x00, 0x00, 0x00⟩ && t.flags == ⟨true, false, true, false⟩ && t.pc == 0x0201) = true := by decide
/-- V2. -/
theorem test_movRR_self :
    after (placed { base with regs := ⟨0x00, 0x00, 0x00, 0x00, 0x00, 0x00, 0x77⟩ } 0x0200 [0xF6]) (fun t => t.regs == ⟨0x00, 0x00, 0x00, 0x00, 0x00, 0x00, 0x77⟩ && t.pc == 0x0201) = true := by decide
/-- V3. -/
theorem test_movRM :
    after (placed { base with regs := ⟨0x00, 0x00, 0x00, 0x00, 0x00, 0x01, 0x20⟩, mem := [(0x120, 0x7E)] } 0x0200 [0xD7]) (fun t => t.regs == ⟨0x00, 0x00, 0x7E, 0x00, 0x00, 0x01, 0x20⟩ && t.pc == 0x0201) = true := by decide
/-- V4. -/
theorem test_movRM_pointer_high_bits_ignored :
    after (placed { base with regs := ⟨0x00, 0x00, 0x00, 0x00, 0x00, 0xC1, 0x20⟩, mem := [(0x120, 0x7E)] } 0x0200 [0xEF]) (fun t => t.regs == ⟨0x00, 0x00, 0x00, 0x00, 0x00, 0x7E, 0x20⟩) = true := by decide
/-- V5. -/
theorem test_movMR :
    after (placed { base with regs := ⟨0x33, 0x00, 0x00, 0x00, 0x00, 0x00, 0x80⟩ } 0x0200 [0xF8]) (fun t => t.byteAt 0x0080 == 0x33 && t.regs == ⟨0x33, 0x00, 0x00, 0x00, 0x00, 0x00, 0x80⟩) = true := by decide
/-- V6. -/
theorem test_movMR_top_of_memory :
    after (placed { base with regs := ⟨0x00, 0x00, 0x00, 0x00, 0x00, 0x3F, 0xFF⟩ } 0x0200 [0xFE]) (fun t => t.byteAt 0x3FFF == 0xFF) = true := by decide
/-- V7. -/
theorem test_mviR :
    after (placed { base with flags := ⟨true, true, true, true⟩ } 0x0200 [0x36, 0xF0]) (fun t => t.regs == ⟨0x00, 0x00, 0x00, 0x00, 0x00, 0x00, 0xF0⟩ && t.flags == ⟨true, true, true, true⟩ && t.pc == 0x0202) = true := by decide
/-- V8. -/
theorem test_mviM :
    after (placed { base with regs := ⟨0x00, 0x00, 0x00, 0x00, 0x00, 0x02, 0x00⟩ } 0x0100 [0x3E, 0xFF]) (fun t => t.byteAt 0x0200 == 0xFF && t.pc == 0x0102) = true := by decide
/-- V9. -/
theorem test_mviM_own_operand :
    after (placed { base with regs := ⟨0x00, 0x00, 0x00, 0x00, 0x00, 0x00, 0x01⟩ } 0x0000 [0x3E, 0x99]) (fun t => t.byteAt 0x0001 == 0x99 && t.pc == 0x0002) = true := by decide
/-- V11. -/
theorem test_inrR_wraps_keeping_carry :
    after (placed { base with regs := ⟨0x00, 0xFF, 0x00, 0x00, 0x00, 0x00, 0x00⟩ } 0x0200 [0x08]) (fun t => t.regs == ⟨0x00, 0x00, 0x00, 0x00, 0x00, 0x00, 0x00⟩ && t.flags == ⟨false, true, false, true⟩) = true := by decide
/-- V12. -/
theorem test_inrR_sign :
    after (placed { base with regs := ⟨0x00, 0x7F, 0x00, 0x00, 0x00, 0x00, 0x00⟩, flags := ⟨true, false, false, false⟩ } 0x0200 [0x08]) (fun t => t.regs == ⟨0x00, 0x80, 0x00, 0x00, 0x00, 0x00, 0x00⟩ && t.flags == ⟨true, false, true, false⟩) = true := by decide
/-- V16. -/
theorem test_dcrR_wraps_keeping_carry :
    after (placed { base with regs := ⟨0x00, 0x00, 0x00, 0x00, 0x00, 0x00, 0x00⟩, flags := ⟨true, false, false, false⟩ } 0x0200 [0x09]) (fun t => t.regs == ⟨0x00, 0xFF, 0x00, 0x00, 0x00, 0x00, 0x00⟩ && t.flags == ⟨true, false, true, true⟩) = true := by decide
/-- V20 with C for B. -/
theorem test_dcrR_to_zero :
    after (placed { base with regs := ⟨0x00, 0x00, 0x01, 0x00, 0x00, 0x00, 0x00⟩, flags := ⟨true, false, false, false⟩ } 0x0200 [0x11]) (fun t => t.regs == ⟨0x00, 0x00, 0x00, 0x00, 0x00, 0x00, 0x00⟩ && t.flags == ⟨true, true, false, true⟩) = true := by decide
/-- V31. -/
theorem test_addR :
    after (placed { base with regs := ⟨0xFF, 0x01, 0x00, 0x00, 0x00, 0x00, 0x00⟩, flags := ⟨true, false, false, false⟩ } 0x0200 [0x81]) (fun t => t.regs == ⟨0x00, 0x01, 0x00, 0x00, 0x00, 0x00, 0x00⟩ && t.flags == ⟨true, true, false, true⟩ && t.pc == 0x0201) = true := by decide
/-- V31. -/
theorem test_addM :
    after (placed { base with regs := ⟨0xFF, 0x00, 0x00, 0x00, 0x00, 0x00, 0x40⟩, flags := ⟨true, false, false, false⟩, mem := [(0x40, 0x01)] } 0x0200 [0x87]) (fun t => t.regs == ⟨0x00, 0x00, 0x00, 0x00, 0x00, 0x00, 0x40⟩ && t.flags == ⟨true, true, false, true⟩ && t.byteAt 0x0040 == 0x01) = true := by decide
/-- V31. -/
theorem test_adi :
    after (placed { base with regs := ⟨0xFF, 0x00, 0x00, 0x00, 0x00, 0x00, 0x00⟩, flags := ⟨true, false, false, false⟩ } 0x0200 [0x04, 0x01]) (fun t => t.regs == ⟨0x00, 0x00, 0x00, 0x00, 0x00, 0x00, 0x00⟩ && t.flags == ⟨true, true, false, true⟩ && t.pc == 0x0202) = true := by decide
/-- V32. -/
theorem test_addR_second :
    after (placed { base with regs := ⟨0x7F, 0x01, 0x00, 0x00, 0x00, 0x00, 0x00⟩, flags := ⟨false, false, false, false⟩ } 0x0200 [0x81]) (fun t => t.regs == ⟨0x80, 0x01, 0x00, 0x00, 0x00, 0x00, 0x00⟩ && t.flags == ⟨false, false, true, false⟩ && t.pc == 0x0201) = true := by decide
/-- V32. -/
theorem test_addM_second :
    after (placed { base with regs := ⟨0x7F, 0x00, 0x00, 0x00, 0x00, 0x00, 0x40⟩, flags := ⟨false, false, false, false⟩, mem := [(0x40, 0x01)] } 0x0200 [0x87]) (fun t => t.regs == ⟨0x80, 0x00, 0x00, 0x00, 0x00, 0x00, 0x40⟩ && t.flags == ⟨false, false, true, false⟩ && t.byteAt 0x0040 == 0x01) = true := by decide
/-- V32. -/
theorem test_adi_second :
    after (placed { base with regs := ⟨0x7F, 0x00, 0x00, 0x00, 0x00, 0x00, 0x00⟩, flags := ⟨false, false, false, false⟩ } 0x0200 [0x04, 0x01]) (fun t => t.regs == ⟨0x80, 0x00, 0x00, 0x00, 0x00, 0x00, 0x00⟩ && t.flags == ⟨false, false, true, false⟩ && t.pc == 0x0202) = true := by decide
/-- V36. -/
theorem test_adcR :
    after (placed { base with regs := ⟨0x3A, 0xC5, 0x00, 0x00, 0x00, 0x00, 0x00⟩, flags := ⟨true, false, false, false⟩ } 0x0200 [0x89]) (fun t => t.regs == ⟨0x00, 0xC5, 0x00, 0x00, 0x00, 0x00, 0x00⟩ && t.flags == ⟨true, true, false, true⟩ && t.pc == 0x0201) = true := by decide
/-- V36. -/
theorem test_adcM :
    after (placed { base with regs := ⟨0x3A, 0x00, 0x00, 0x00, 0x00, 0x00, 0x40⟩, flags := ⟨true, false, false, false⟩, mem := [(0x40, 0xC5)] } 0x0200 [0x8F]) (fun t => t.regs == ⟨0x00, 0x00, 0x00, 0x00, 0x00, 0x00, 0x40⟩ && t.flags == ⟨true, true, false, true⟩ && t.byteAt 0x0040 == 0xC5) = true := by decide
/-- V36. -/
theorem test_aci :
    after (placed { base with regs := ⟨0x3A, 0x00, 0x00, 0x00, 0x00, 0x00, 0x00⟩, flags := ⟨true, false, false, false⟩ } 0x0200 [0x0C, 0xC5]) (fun t => t.regs == ⟨0x00, 0x00, 0x00, 0x00, 0x00, 0x00, 0x00⟩ && t.flags == ⟨true, true, false, true⟩ && t.pc == 0x0202) = true := by decide
/-- V37. -/
theorem test_adcR_second :
    after (placed { base with regs := ⟨0xFF, 0xFF, 0x00, 0x00, 0x00, 0x00, 0x00⟩, flags := ⟨true, false, false, false⟩ } 0x0200 [0x89]) (fun t => t.regs == ⟨0xFF, 0xFF, 0x00, 0x00, 0x00, 0x00, 0x00⟩ && t.flags == ⟨true, false, true, true⟩ && t.pc == 0x0201) = true := by decide
/-- V37. -/
theorem test_adcM_second :
    after (placed { base with regs := ⟨0xFF, 0x00, 0x00, 0x00, 0x00, 0x00, 0x40⟩, flags := ⟨true, false, false, false⟩, mem := [(0x40, 0xFF)] } 0x0200 [0x8F]) (fun t => t.regs == ⟨0xFF, 0x00, 0x00, 0x00, 0x00, 0x00, 0x40⟩ && t.flags == ⟨true, false, true, true⟩ && t.byteAt 0x0040 == 0xFF) = true := by decide
/-- V37. -/
theorem test_aci_second :
    after (placed { base with regs := ⟨0xFF, 0x00, 0x00, 0x00, 0x00, 0x00, 0x00⟩, flags := ⟨true, false, false, false⟩ } 0x0200 [0x0C, 0xFF]) (fun t => t.regs == ⟨0xFF, 0x00, 0x00, 0x00, 0x00, 0x00, 0x00⟩ && t.flags == ⟨true, false, true, true⟩ && t.pc == 0x0202) = true := by decide
/-- V42. -/
theorem test_subR :
    after (placed { base with regs := ⟨0x00, 0x01, 0x00, 0x00, 0x00, 0x00, 0x00⟩, flags := ⟨false, false, false, false⟩ } 0x0200 [0x91]) (fun t => t.regs == ⟨0xFF, 0x01, 0x00, 0x00, 0x00, 0x00, 0x00⟩ && t.flags == ⟨true, false, true, true⟩ && t.pc == 0x0201) = true := by decide
/-- V42. -/
theorem test_subM :
    after (placed { base with regs := ⟨0x00, 0x00, 0x00, 0x00, 0x00, 0x00, 0x40⟩, flags := ⟨false, false, false, false⟩, mem := [(0x40, 0x01)] } 0x0200 [0x97]) (fun t => t.regs == ⟨0xFF, 0x00, 0x00, 0x00, 0x00, 0x00, 0x40⟩ && t.flags == ⟨true, false, true, true⟩ && t.byteAt 0x0040 == 0x01) = true := by decide
/-- V42. -/
theorem test_sui :
    after (placed { base with regs := ⟨0x00, 0x00, 0x00, 0x00, 0x00, 0x00, 0x00⟩, flags := ⟨false, false, false, false⟩ } 0x0200 [0x14, 0x01]) (fun t => t.regs == ⟨0xFF, 0x00, 0x00, 0x00, 0x00, 0x00, 0x00⟩ && t.flags == ⟨true, false, true, true⟩ && t.pc == 0x0202) = true := by decide
/-- V43. -/
theorem test_subR_second :
    after (placed { base with regs := ⟨0x80, 0x01, 0x00, 0x00, 0x00, 0x00, 0x00⟩, flags := ⟨true, false, false, false⟩ } 0x0200 [0x91]) (fun t => t.regs == ⟨0x7F, 0x01, 0x00, 0x00, 0x00, 0x00, 0x00⟩ && t.flags == ⟨false, false, false, false⟩ && t.pc == 0x0201) = true := by decide
/-- V43. -/
theorem test_subM_second :
    after (placed { base with regs := ⟨0x80, 0x00, 0x00, 0x00, 0x00, 0x00, 0x40⟩, flags := ⟨true, false, false, false⟩, mem := [(0x40, 0x01)] } 0x0200 [0x97]) (fun t => t.regs == ⟨0x7F, 0x00, 0x00, 0x00, 0x00, 0x00, 0x40⟩ && t.flags == ⟨false, false, false, false⟩ && t.byteAt 0x0040 == 0x01) = true := by decide
/-- V43. -/
theorem test_sui_second :
    after (placed { base with regs := ⟨0x80, 0x00, 0x00, 0x00, 0x00, 0x00, 0x00⟩, flags := ⟨true, false, false, false⟩ } 0x0200 [0x14, 0x01]) (fun t => t.regs == ⟨0x7F, 0x00, 0x00, 0x00, 0x00, 0x00, 0x00⟩ && t.flags == ⟨false, false, false, false⟩ && t.pc == 0x0202) = true := by decide
/-- V49. -/
theorem test_sbbR :
    after (placed { base with regs := ⟨0x00, 0xFF, 0x00, 0x00, 0x00, 0x00, 0x00⟩, flags := ⟨true, false, false, false⟩ } 0x0200 [0x99]) (fun t => t.regs == ⟨0x00, 0xFF, 0x00, 0x00, 0x00, 0x00, 0x00⟩ && t.flags == ⟨true, true, false, true⟩ && t.pc == 0x0201) = true := by decide
/-- V49. -/
theorem test_sbbM :
    after (placed { base with regs := ⟨0x00, 0x00, 0x00, 0x00, 0x00, 0x00, 0x40⟩, flags := ⟨true, false, false, false⟩, mem := [(0x40, 0xFF)] } 0x0200 [0x9F]) (fun t => t.regs == ⟨0x00, 0x00, 0x00, 0x00, 0x00, 0x00, 0x40⟩ && t.flags == ⟨true, true, false, true⟩ && t.byteAt 0x0040 == 0xFF) = true := by decide
/-- V49. -/
theorem test_sbi :
    after (placed { base with regs := ⟨0x00, 0x00, 0x00, 0x00, 0x00, 0x00, 0x00⟩, flags := ⟨true, false, false, false⟩ } 0x0200 [0x1C, 0xFF]) (fun t => t.regs == ⟨0x00, 0x00, 0x00, 0x00, 0x00, 0x00, 0x00⟩ && t.flags == ⟨true, true, false, true⟩ && t.pc == 0x0202) = true := by decide
/-- V47. -/
theorem test_sbbR_second :
    after (placed { base with regs := ⟨0x3A, 0x39, 0x00, 0x00, 0x00, 0x00, 0x00⟩, flags := ⟨true, false, false, false⟩ } 0x0200 [0x99]) (fun t => t.regs == ⟨0x00, 0x39, 0x00, 0x00, 0x00, 0x00, 0x00⟩ && t.flags == ⟨false, true, false, true⟩ && t.pc == 0x0201) = true := by decide
/-- V47. -/
theorem test_sbbM_second :
    after (placed { base with regs := ⟨0x3A, 0x00, 0x00, 0x00, 0x00, 0x00, 0x40⟩, flags := ⟨true, false, false, false⟩, mem := [(0x40, 0x39)] } 0x0200 [0x9F]) (fun t => t.regs == ⟨0x00, 0x00, 0x00, 0x00, 0x00, 0x00, 0x40⟩ && t.flags == ⟨false, true, false, true⟩ && t.byteAt 0x0040 == 0x39) = true := by decide
/-- V47. -/
theorem test_sbi_second :
    after (placed { base with regs := ⟨0x3A, 0x00, 0x00, 0x00, 0x00, 0x00, 0x00⟩, flags := ⟨true, false, false, false⟩ } 0x0200 [0x1C, 0x39]) (fun t => t.regs == ⟨0x00, 0x00, 0x00, 0x00, 0x00, 0x00, 0x00⟩ && t.flags == ⟨false, true, false, true⟩ && t.pc == 0x0202) = true := by decide
/-- V60. -/
theorem test_anaR :
    after (placed { base with regs := ⟨0xF0, 0x3C, 0x00, 0x00, 0x00, 0x00, 0x00⟩, flags := ⟨true, false, false, false⟩ } 0x0200 [0xA1]) (fun t => t.regs == ⟨0x30, 0x3C, 0x00, 0x00, 0x00, 0x00, 0x00⟩ && t.flags == ⟨false, false, false, true⟩ && t.pc == 0x0201) = true := by decide
/-- V60. -/
theorem test_anaM :
    after (placed { base with regs := ⟨0xF0, 0x00, 0x00, 0x00, 0x00, 0x00, 0x40⟩, flags := ⟨true, false, false, false⟩, mem := [(0x40, 0x3C)] } 0x0200 [0xA7]) (fun t => t.regs == ⟨0x30, 0x00, 0x00, 0x00, 0x00, 0x00, 0x40⟩ && t.flags == ⟨false, false, false, true⟩ && t.byteAt 0x0040 == 0x3C) = true := by decide
/-- V60. -/
theorem test_ani :
    after (placed { base with regs := ⟨0xF0, 0x00, 0x00, 0x00, 0x00, 0x00, 0x00⟩, flags := ⟨true, false, false, false⟩ } 0x0200 [0x24, 0x3C]) (fun t => t.regs == ⟨0x30, 0x00, 0x00, 0x00, 0x00, 0x00, 0x00⟩ && t.flags == ⟨false, false, false, true⟩ && t.pc == 0x0202) = true := by decide
/-- V63. -/
theorem test_anaR_second :
    after (placed { base with regs := ⟨0x81, 0x80, 0x00, 0x00, 0x00, 0x00, 0x00⟩, flags := ⟨false, false, false, false⟩ } 0x0200 [0xA1]) (fun t => t.regs == ⟨0x80, 0x80, 0x00, 0x00, 0x00, 0x00, 0x00⟩ && t.flags == ⟨false, false, true, false⟩ && t.pc == 0x0201) = true := by decide
/-- V63. -/
theorem test_anaM_second :
    after (placed { base with regs := ⟨0x81, 0x00, 0x00, 0x00, 0x00, 0x00, 0x40⟩, flags := ⟨false, false, false, false⟩, mem := [(0x40, 0x80)] } 0x0200 [0xA7]) (fun t => t.regs == ⟨0x80, 0x00, 0x00, 0x00, 0x00, 0x00, 0x40⟩ && t.flags == ⟨false, false, true, false⟩ && t.byteAt 0x0040 == 0x80) = true := by decide
/-- V63. -/
theorem test_ani_second :
    after (placed { base with regs := ⟨0x81, 0x00, 0x00, 0x00, 0x00, 0x00, 0x00⟩, flags := ⟨false, false, false, false⟩ } 0x0200 [0x24, 0x80]) (fun t => t.regs == ⟨0x80, 0x00, 0x00, 0x00, 0x00, 0x00, 0x00⟩ && t.flags == ⟨false, false, true, false⟩ && t.pc == 0x0202) = true := by decide
/-- V65. -/
theorem test_xraR :
    after (placed { base with regs := ⟨0xAA, 0x55, 0x00, 0x00, 0x00, 0x00, 0x00⟩, flags := ⟨true, false, false, false⟩ } 0x0200 [0xA9]) (fun t => t.regs == ⟨0xFF, 0x55, 0x00, 0x00, 0x00, 0x00, 0x00⟩ && t.flags == ⟨false, false, true, true⟩ && t.pc == 0x0201) = true := by decide
/-- V65. -/
theorem test_xraM :
    after (placed { base with regs := ⟨0xAA, 0x00, 0x00, 0x00, 0x00, 0x00, 0x40⟩, flags := ⟨true, false, false, false⟩, mem := [(0x40, 0x55)] } 0x0200 [0xAF]) (fun t => t.regs == ⟨0xFF, 0x00, 0x00, 0x00, 0x00, 0x00, 0x40⟩ && t.flags == ⟨false, false, true, true⟩ && t.byteAt 0x0040 == 0x55) = true := by decide
/-- V65. -/
theorem test_xri :
    after (placed { base with regs := ⟨0xAA, 0x00, 0x00, 0x00, 0x00, 0x00, 0x00⟩, flags := ⟨true, false, false, false⟩ } 0x0200 [0x2C, 0x55]) (fun t => t.regs == ⟨0xFF, 0x00, 0x00, 0x00, 0x00, 0x00, 0x00⟩ && t.flags == ⟨false, false, true, true⟩ && t.pc == 0x0202) = true := by decide
/-- V66. -/
theorem test_xraR_second :
    after (placed { base with regs := ⟨0x0F, 0x0E, 0x00, 0x00, 0x00, 0x00, 0x00⟩, flags := ⟨false, false, false, false⟩ } 0x0200 [0xA9]) (fun t => t.regs == ⟨0x01, 0x0E, 0x00, 0x00, 0x00, 0x00, 0x00⟩ && t.flags == ⟨false, false, false, false⟩ && t.pc == 0x0201) = true := by decide
/-- V66. -/
theorem test_xraM_second :
    after (placed { base with regs := ⟨0x0F, 0x00, 0x00, 0x00, 0x00, 0x00, 0x40⟩, flags := ⟨false, false, false, false⟩, mem := [(0x40, 0x0E)] } 0x0200 [0xAF]) (fun t => t.regs == ⟨0x01, 0x00, 0x00, 0x00, 0x00, 0x00, 0x40⟩ && t.flags == ⟨false, false, false, false⟩ && t.byteAt 0x0040 == 0x0E) = true := by decide
/-- V66. -/
theorem test_xri_second :
    after (placed { base with regs := ⟨0x0F, 0x00, 0x00, 0x00, 0x00, 0x00, 0x00⟩, flags := ⟨false, false, false, false⟩ } 0x0200 [0x2C, 0x0E]) (fun t => t.regs == ⟨0x01, 0x00, 0x00, 0x00, 0x00, 0x00, 0x00⟩ && t.flags == ⟨false, false, false, false⟩ && t.pc == 0x0202) = true := by decide
/-- V70. -/
theorem test_oraR :
    after (placed { base with regs := ⟨0x01, 0x02, 0x00, 0x00, 0x00, 0x00, 0x00⟩, flags := ⟨true, false, false, false⟩ } 0x0200 [0xB1]) (fun t => t.regs == ⟨0x03, 0x02, 0x00, 0x00, 0x00, 0x00, 0x00⟩ && t.flags == ⟨false, false, false, true⟩ && t.pc == 0x0201) = true := by decide
/-- V70. -/
theorem test_oraM :
    after (placed { base with regs := ⟨0x01, 0x00, 0x00, 0x00, 0x00, 0x00, 0x40⟩, flags := ⟨true, false, false, false⟩, mem := [(0x40, 0x02)] } 0x0200 [0xB7]) (fun t => t.regs == ⟨0x03, 0x00, 0x00, 0x00, 0x00, 0x00, 0x40⟩ && t.flags == ⟨false, false, false, true⟩ && t.byteAt 0x0040 == 0x02) = true := by decide
/-- V70. -/
theorem test_ori :
    after (placed { base with regs := ⟨0x01, 0x00, 0x00, 0x00, 0x00, 0x00, 0x00⟩, flags := ⟨true, false, false, false⟩ } 0x0200 [0x34, 0x02]) (fun t => t.regs == ⟨0x03, 0x00, 0x00, 0x00, 0x00, 0x00, 0x00⟩ && t.flags == ⟨false, false, false, true⟩ && t.pc == 0x0202) = true := by decide
/-- V68. -/
theorem test_oraR_second :
    after (placed { base with regs := ⟨0x00, 0x00, 0x00, 0x00, 0x00, 0x00, 0x00⟩, flags := ⟨false, false, false, false⟩ } 0x0200 [0xB1]) (fun t => t.regs == ⟨0x00, 0x00, 0x00, 0x00, 0x00, 0x00, 0x00⟩ && t.flags == ⟨false, true, false, true⟩ && t.pc == 0x0201) = true := by decide
/-- V68. -/
theorem test_oraM_second :
    after (placed { base with regs := ⟨0x00, 0x00, 0x00, 0x00, 0x00, 0x00, 0x40⟩, flags := ⟨false, false, false, false⟩ } 0x0200 [0xB7]) (fun t => t.regs == ⟨0x00, 0x00, 0x00, 0x00, 0x00, 0x00, 0x40⟩ && t.flags == ⟨false, true, false, true⟩ && t.byteAt 0x0040 == 0x00) = true := by decide
/-- V68. -/
theorem test_ori_second :
    after (placed { base with regs := ⟨0x00, 0x00, 0x00, 0x00, 0x00, 0x00, 0x00⟩, flags := ⟨false, false, false, false⟩ } 0x0200 [0x34, 0x00]) (fun t => t.regs == ⟨0x00, 0x00, 0x00, 0x00, 0x00, 0x00, 0x00⟩ && t.flags == ⟨false, true, false, true⟩ && t.pc == 0x0202) = true := by decide
/-- V54. -/
theorem test_cmpR :
    after (placed { base with regs := ⟨0x05, 0x06, 0x00, 0x00, 0x00, 0x00, 0x00⟩, flags := ⟨false, false, false, false⟩ } 0x0200 [0xB9]) (fun t => t.regs == ⟨0x05, 0x06, 0x00, 0x00, 0x00, 0x00, 0x00⟩ && t.flags == ⟨true, false, true, true⟩ && t.pc == 0x0201) = true := by decide
/-- V54. -/
theorem test_cmpM :
    after (placed { base with regs := ⟨0x05, 0x00, 0x00, 0x00, 0x00, 0x00, 0x40⟩, flags := ⟨false, false, false, false⟩, mem := [(0x40, 0x06)] } 0x0200 [0xBF]) (fun t => t.regs == ⟨0x05, 0x00, 0x00, 0x00, 0x00, 0x00, 0x40⟩ && t.flags == ⟨true, false, true, true⟩ && t.byteAt 0x0040 == 0x06) = true := by decide
/-- V54. -/
theorem test_cpi :
    after (placed { base with regs := ⟨0x05, 0x00, 0x00, 0x00, 0x00, 0x00, 0x00⟩, flags := ⟨false, false, false, false⟩ } 0x0200 [0x3C, 0x06]) (fun t => t.regs == ⟨0x05, 0x00, 0x00, 0x00, 0x00, 0x00, 0x00⟩ && t.flags == ⟨true, false, true, true⟩ && t.pc == 0x0202) = true := by decide
/-- V53. -/
theorem test_cmpR_second :
    after (placed { base with regs := ⟨0x3A, 0x3A, 0x00, 0x00, 0x00, 0x00, 0x00⟩, flags := ⟨true, false, false, false⟩ } 0x0200 [0xB9]) (fun t => t.regs == ⟨0x3A, 0x3A, 0x00, 0x00, 0x00, 0x00, 0x00⟩ && t.flags == ⟨false, true, false, true⟩ && t.pc == 0x0201) = true := by decide
/-- V53. -/
theorem test_cmpM_second :
    after (placed { base with regs := ⟨0x3A, 0x00, 0x00, 0x00, 0x00, 0x00, 0x40⟩, flags := ⟨true, false, false, false⟩, mem := [(0x40, 0x3A)] } 0x0200 [0xBF]) (fun t => t.regs == ⟨0x3A, 0x00, 0x00, 0x00, 0x00, 0x00, 0x40⟩ && t.flags == ⟨false, true, false, true⟩ && t.byteAt 0x0040 == 0x3A) = true := by decide
/-- V53. -/
theorem test_cpi_second :
    after (placed { base with regs := ⟨0x3A, 0x00, 0x00, 0x00, 0x00, 0x00, 0x00⟩, flags := ⟨true, false, false, false⟩ } 0x0200 [0x3C, 0x3A]) (fun t => t.regs == ⟨0x3A, 0x00, 0x00, 0x00, 0x00, 0x00, 0x00⟩ && t.flags == ⟨false, true, false, true⟩ && t.pc == 0x0202) = true := by decide
/-- V80. -/
theorem test_rlc :
    after (placed { base with regs := ⟨0x80, 0x00, 0x00, 0x00, 0x00, 0x00, 0x00⟩, flags := ⟨false, true, false, true⟩ } 0x0200 [0x02]) (fun t => t.regs == ⟨0x01, 0x00, 0x00, 0x00, 0x00, 0x00, 0x00⟩ && t.flags == ⟨true, true, false, true⟩) = true := by decide
/-- V81. -/
theorem test_rlc_second :
    after (placed { base with regs := ⟨0x01, 0x00, 0x00, 0x00, 0x00, 0x00, 0x00⟩, flags := ⟨true, true, false, true⟩ } 0x0200 [0x02]) (fun t => t.regs == ⟨0x02, 0x00, 0x00, 0x00, 0x00, 0x00, 0x00⟩ && t.flags == ⟨false, true, false, true⟩) = true := by decide
/-- V86. -/
theorem test_rrc :
    after (placed { base with regs := ⟨0x01, 0x00, 0x00, 0x00, 0x00, 0x00, 0x00⟩, flags := ⟨false, true, false, true⟩ } 0x0200 [0x0A]) (fun t => t.regs == ⟨0x80, 0x00, 0x00, 0x00, 0x00, 0x00, 0x00⟩ && t.flags == ⟨true, true, false, true⟩) = true := by decide
/-- V85. -/
theorem test_rrc_second :
    after (placed { base with regs := ⟨0x80, 0x00, 0x00, 0x00, 0x00, 0x00, 0x00⟩, flags := ⟨true, true, false, true⟩ } 0x0200 [0x0A]) (fun t => t.regs == ⟨0x40, 0x00, 0x00, 0x00, 0x00, 0x00, 0x00⟩ && t.flags == ⟨false, true, false, true⟩) = true := by decide
/-- V92. -/
theorem test_ral :
    after (placed { base with regs := ⟨0x80, 0x00, 0x00, 0x00, 0x00, 0x00, 0x00⟩, flags := ⟨true, true, false, true⟩ } 0x0200 [0x12]) (fun t => t.regs == ⟨0x01, 0x00, 0x00, 0x00, 0x00, 0x00, 0x00⟩ && t.flags == ⟨true, true, false, true⟩) = true := by decide
/-- V95. -/
theorem test_ral_second :
    after (placed { base with regs := ⟨0x00, 0x00, 0x00, 0x00, 0x00, 0x00, 0x00⟩, flags := ⟨true, true, false, true⟩ } 0x0200 [0x12]) (fun t => t.regs == ⟨0x01, 0x00, 0x00, 0x00, 0x00, 0x00, 0x00⟩ && t.flags == ⟨false, true, false, true⟩) = true := by decide
/-- V99. -/
theorem test_rar :
    after (placed { base with regs := ⟨0x01, 0x00, 0x00, 0x00, 0x00, 0x00, 0x00⟩, flags := ⟨true, true, false, true⟩ } 0x0200 [0x1A]) (fun t => t.regs == ⟨0x80, 0x00, 0x00, 0x00, 0x00, 0x00, 0x00⟩ && t.flags == ⟨true, true, false, true⟩) = true := by decide
/-- V97. -/
theorem test_rar_second :
    after (placed { base with regs := ⟨0x80, 0x00, 0x00, 0x00, 0x00, 0x00, 0x00⟩, flags := ⟨false, true, false, true⟩ } 0x0200 [0x1A]) (fun t => t.regs == ⟨0x40, 0x00, 0x00, 0x00, 0x00, 0x00, 0x00⟩ && t.flags == ⟨false, true, false, true⟩) = true := by decide
/-- V110. -/
theorem test_jmp :
    after (placed base 0x0100 [0x44, 0x34, 0x12]) (fun t => t.pc == 0x1234 && t.sp == 0) = true := by decide
/-- V112. -/
theorem test_jmp_across_top_of_memory :
    after (placed base 0x3FFE [0x44, 0x34, 0x12]) (fun t => t.pc == 0x1234) = true := by decide
/-- R183. -/
theorem test_jnc_taken :
    after (placed { base with flags := ⟨false, true, true, true⟩ } 0x0010 [0x40, 0x00, 0x3F]) (fun t => t.pc == 0x3F00 && t.flags == ⟨false, true, true, true⟩) = true := by decide
/-- R183, R211. -/
theorem test_jnc_not_taken :
    after (placed { base with flags := ⟨true, false, false, false⟩ } 0x0010 [0x40, 0x00, 0x3F]) (fun t => t.pc == 0x0013) = true := by decide
/-- R192, V118. -/
theorem test_cnc_taken :
    after (placed { base with flags := ⟨false, true, true, true⟩ } 0x0020 [0x42, 0x40, 0x00]) (fun t => t.pc == 0x0040 && t.sp == 1 && t.entry 0 == 0x0023) = true := by decide
/-- R192, V119. -/
theorem test_cnc_not_taken :
    after (placed { base with flags := ⟨true, false, false, false⟩ } 0x0020 [0x42, 0x40, 0x00]) (fun t => t.pc == 0x0023 && t.sp == 0) = true := by decide
/-- R201, V124. -/
theorem test_rnc_taken :
    after (placed { base with flags := ⟨false, true, true, true⟩, sp := 1, stk := #v[0x0203, 0, 0, 0, 0, 0, 0, 0] } 0x0300 [0x03]) (fun t => t.pc == 0x0203 && t.sp == 0 && t.entry 1 == 0x0301) = true := by decide
/-- R201, V123. -/
theorem test_rnc_not_taken :
    after (placed { base with flags := ⟨true, false, false, false⟩ } 0x0050 [0x03]) (fun t => t.pc == 0x0051 && t.sp == 0) = true := by decide
/-- R184. -/
theorem test_jnz_taken :
    after (placed { base with flags := ⟨true, false, true, true⟩ } 0x0010 [0x48, 0x00, 0x3F]) (fun t => t.pc == 0x3F00 && t.flags == ⟨true, false, true, true⟩) = true := by decide
/-- R184, R211. -/
theorem test_jnz_not_taken :
    after (placed { base with flags := ⟨false, true, false, false⟩ } 0x0010 [0x48, 0x00, 0x3F]) (fun t => t.pc == 0x0013) = true := by decide
/-- R193, V118. -/
theorem test_cnz_taken :
    after (placed { base with flags := ⟨true, false, true, true⟩ } 0x0020 [0x4A, 0x40, 0x00]) (fun t => t.pc == 0x0040 && t.sp == 1 && t.entry 0 == 0x0023) = true := by decide
/-- R193, V119. -/
theorem test_cnz_not_taken :
    after (placed { base with flags := ⟨false, true, false, false⟩ } 0x0020 [0x4A, 0x40, 0x00]) (fun t => t.pc == 0x0023 && t.sp == 0) = true := by decide
/-- R202, V124. -/
theorem test_rnz_taken :
    after (placed { base with flags := ⟨true, false, true, true⟩, sp := 1, stk := #v[0x0203, 0, 0, 0, 0, 0, 0, 0] } 0x0300 [0x0B]) (fun t => t.pc == 0x0203 && t.sp == 0 && t.entry 1 == 0x0301) = true := by decide
/-- R202, V123. -/
theorem test_rnz_not_taken :
    after (placed { base with flags := ⟨false, true, false, false⟩ } 0x0050 [0x0B]) (fun t => t.pc == 0x0051 && t.sp == 0) = true := by decide
/-- R185. -/
theorem test_jp_taken :
    after (placed { base with flags := ⟨true, true, false, true⟩ } 0x0010 [0x50, 0x00, 0x3F]) (fun t => t.pc == 0x3F00 && t.flags == ⟨true, true, false, true⟩) = true := by decide
/-- R185, R211. -/
theorem test_jp_not_taken :
    after (placed { base with flags := ⟨false, false, true, false⟩ } 0x0010 [0x50, 0x00, 0x3F]) (fun t => t.pc == 0x0013) = true := by decide
/-- R194, V118. -/
theorem test_cp_taken :
    after (placed { base with flags := ⟨true, true, false, true⟩ } 0x0020 [0x52, 0x40, 0x00]) (fun t => t.pc == 0x0040 && t.sp == 1 && t.entry 0 == 0x0023) = true := by decide
/-- R194, V119. -/
theorem test_cp_not_taken :
    after (placed { base with flags := ⟨false, false, true, false⟩ } 0x0020 [0x52, 0x40, 0x00]) (fun t => t.pc == 0x0023 && t.sp == 0) = true := by decide
/-- R203, V124. -/
theorem test_rp_taken :
    after (placed { base with flags := ⟨true, true, false, true⟩, sp := 1, stk := #v[0x0203, 0, 0, 0, 0, 0, 0, 0] } 0x0300 [0x13]) (fun t => t.pc == 0x0203 && t.sp == 0 && t.entry 1 == 0x0301) = true := by decide
/-- R203, V123. -/
theorem test_rp_not_taken :
    after (placed { base with flags := ⟨false, false, true, false⟩ } 0x0050 [0x13]) (fun t => t.pc == 0x0051 && t.sp == 0) = true := by decide
/-- R186. -/
theorem test_jpo_taken :
    after (placed { base with flags := ⟨true, true, true, false⟩ } 0x0010 [0x58, 0x00, 0x3F]) (fun t => t.pc == 0x3F00 && t.flags == ⟨true, true, true, false⟩) = true := by decide
/-- R186, R211. -/
theorem test_jpo_not_taken :
    after (placed { base with flags := ⟨false, false, false, true⟩ } 0x0010 [0x58, 0x00, 0x3F]) (fun t => t.pc == 0x0013) = true := by decide
/-- R195, V118. -/
theorem test_cpo_taken :
    after (placed { base with flags := ⟨true, true, true, false⟩ } 0x0020 [0x5A, 0x40, 0x00]) (fun t => t.pc == 0x0040 && t.sp == 1 && t.entry 0 == 0x0023) = true := by decide
/-- R195, V119. -/
theorem test_cpo_not_taken :
    after (placed { base with flags := ⟨false, false, false, true⟩ } 0x0020 [0x5A, 0x40, 0x00]) (fun t => t.pc == 0x0023 && t.sp == 0) = true := by decide
/-- R204, V124. -/
theorem test_rpo_taken :
    after (placed { base with flags := ⟨true, true, true, false⟩, sp := 1, stk := #v[0x0203, 0, 0, 0, 0, 0, 0, 0] } 0x0300 [0x1B]) (fun t => t.pc == 0x0203 && t.sp == 0 && t.entry 1 == 0x0301) = true := by decide
/-- R204, V123. -/
theorem test_rpo_not_taken :
    after (placed { base with flags := ⟨false, false, false, true⟩ } 0x0050 [0x1B]) (fun t => t.pc == 0x0051 && t.sp == 0) = true := by decide
/-- R187. -/
theorem test_jc_taken :
    after (placed { base with flags := ⟨true, false, false, false⟩ } 0x0010 [0x60, 0x00, 0x3F]) (fun t => t.pc == 0x3F00 && t.flags == ⟨true, false, false, false⟩) = true := by decide
/-- R187, R211. -/
theorem test_jc_not_taken :
    after (placed { base with flags := ⟨false, true, true, true⟩ } 0x0010 [0x60, 0x00, 0x3F]) (fun t => t.pc == 0x0013) = true := by decide
/-- R196, V118. -/
theorem test_cc_taken :
    after (placed { base with flags := ⟨true, false, false, false⟩ } 0x0020 [0x62, 0x40, 0x00]) (fun t => t.pc == 0x0040 && t.sp == 1 && t.entry 0 == 0x0023) = true := by decide
/-- R196, V119. -/
theorem test_cc_not_taken :
    after (placed { base with flags := ⟨false, true, true, true⟩ } 0x0020 [0x62, 0x40, 0x00]) (fun t => t.pc == 0x0023 && t.sp == 0) = true := by decide
/-- R205, V124. -/
theorem test_rc_taken :
    after (placed { base with flags := ⟨true, false, false, false⟩, sp := 1, stk := #v[0x0203, 0, 0, 0, 0, 0, 0, 0] } 0x0300 [0x23]) (fun t => t.pc == 0x0203 && t.sp == 0 && t.entry 1 == 0x0301) = true := by decide
/-- R205, V123. -/
theorem test_rc_not_taken :
    after (placed { base with flags := ⟨false, true, true, true⟩ } 0x0050 [0x23]) (fun t => t.pc == 0x0051 && t.sp == 0) = true := by decide
/-- R188. -/
theorem test_jz_taken :
    after (placed { base with flags := ⟨false, true, false, false⟩ } 0x0010 [0x68, 0x00, 0x3F]) (fun t => t.pc == 0x3F00 && t.flags == ⟨false, true, false, false⟩) = true := by decide
/-- R188, R211. -/
theorem test_jz_not_taken :
    after (placed { base with flags := ⟨true, false, true, true⟩ } 0x0010 [0x68, 0x00, 0x3F]) (fun t => t.pc == 0x0013) = true := by decide
/-- R197, V118. -/
theorem test_cz_taken :
    after (placed { base with flags := ⟨false, true, false, false⟩ } 0x0020 [0x6A, 0x40, 0x00]) (fun t => t.pc == 0x0040 && t.sp == 1 && t.entry 0 == 0x0023) = true := by decide
/-- R197, V119. -/
theorem test_cz_not_taken :
    after (placed { base with flags := ⟨true, false, true, true⟩ } 0x0020 [0x6A, 0x40, 0x00]) (fun t => t.pc == 0x0023 && t.sp == 0) = true := by decide
/-- R206, V124. -/
theorem test_rz_taken :
    after (placed { base with flags := ⟨false, true, false, false⟩, sp := 1, stk := #v[0x0203, 0, 0, 0, 0, 0, 0, 0] } 0x0300 [0x2B]) (fun t => t.pc == 0x0203 && t.sp == 0 && t.entry 1 == 0x0301) = true := by decide
/-- R206, V123. -/
theorem test_rz_not_taken :
    after (placed { base with flags := ⟨true, false, true, true⟩ } 0x0050 [0x2B]) (fun t => t.pc == 0x0051 && t.sp == 0) = true := by decide
/-- R189. -/
theorem test_jm_taken :
    after (placed { base with flags := ⟨false, false, true, false⟩ } 0x0010 [0x70, 0x00, 0x3F]) (fun t => t.pc == 0x3F00 && t.flags == ⟨false, false, true, false⟩) = true := by decide
/-- R189, R211. -/
theorem test_jm_not_taken :
    after (placed { base with flags := ⟨true, true, false, true⟩ } 0x0010 [0x70, 0x00, 0x3F]) (fun t => t.pc == 0x0013) = true := by decide
/-- R198, V118. -/
theorem test_cm_taken :
    after (placed { base with flags := ⟨false, false, true, false⟩ } 0x0020 [0x72, 0x40, 0x00]) (fun t => t.pc == 0x0040 && t.sp == 1 && t.entry 0 == 0x0023) = true := by decide
/-- R198, V119. -/
theorem test_cm_not_taken :
    after (placed { base with flags := ⟨true, true, false, true⟩ } 0x0020 [0x72, 0x40, 0x00]) (fun t => t.pc == 0x0023 && t.sp == 0) = true := by decide
/-- R207, V124. -/
theorem test_rm_taken :
    after (placed { base with flags := ⟨false, false, true, false⟩, sp := 1, stk := #v[0x0203, 0, 0, 0, 0, 0, 0, 0] } 0x0300 [0x33]) (fun t => t.pc == 0x0203 && t.sp == 0 && t.entry 1 == 0x0301) = true := by decide
/-- R207, V123. -/
theorem test_rm_not_taken :
    after (placed { base with flags := ⟨true, true, false, true⟩ } 0x0050 [0x33]) (fun t => t.pc == 0x0051 && t.sp == 0) = true := by decide
/-- R190. -/
theorem test_jpe_taken :
    after (placed { base with flags := ⟨false, false, false, true⟩ } 0x0010 [0x78, 0x00, 0x3F]) (fun t => t.pc == 0x3F00 && t.flags == ⟨false, false, false, true⟩) = true := by decide
/-- R190, R211. -/
theorem test_jpe_not_taken :
    after (placed { base with flags := ⟨true, true, true, false⟩ } 0x0010 [0x78, 0x00, 0x3F]) (fun t => t.pc == 0x0013) = true := by decide
/-- R199, V118. -/
theorem test_cpe_taken :
    after (placed { base with flags := ⟨false, false, false, true⟩ } 0x0020 [0x7A, 0x40, 0x00]) (fun t => t.pc == 0x0040 && t.sp == 1 && t.entry 0 == 0x0023) = true := by decide
/-- R199, V119. -/
theorem test_cpe_not_taken :
    after (placed { base with flags := ⟨true, true, true, false⟩ } 0x0020 [0x7A, 0x40, 0x00]) (fun t => t.pc == 0x0023 && t.sp == 0) = true := by decide
/-- R208, V124. -/
theorem test_rpe_taken :
    after (placed { base with flags := ⟨false, false, false, true⟩, sp := 1, stk := #v[0x0203, 0, 0, 0, 0, 0, 0, 0] } 0x0300 [0x3B]) (fun t => t.pc == 0x0203 && t.sp == 0 && t.entry 1 == 0x0301) = true := by decide
/-- R208, V123. -/
theorem test_rpe_not_taken :
    after (placed { base with flags := ⟨true, true, true, false⟩ } 0x0050 [0x3B]) (fun t => t.pc == 0x0051 && t.sp == 0) = true := by decide
/-- V116. -/
theorem test_call :
    after (placed { base with sp := 2 } 0x0100 [0x46, 0x00, 0x03]) (fun t => t.sp == 3 && t.pc == 0x0300 && t.entry 2 == 0x0103) = true := by decide
/-- V117. -/
theorem test_call_wrapped_return_address :
    after (placed base 0x3FFD [0x46, 0x00, 0x03]) (fun t => t.sp == 1 && t.pc == 0x0300 && t.entry 0 == 0x0000) = true := by decide
/-- V122. -/
theorem test_ret :
    after (placed { base with sp := 3, stk := #v[0, 0, 0x0103, 0, 0, 0, 0, 0] } 0x0305 [0x07]) (fun t => t.sp == 2 && t.pc == 0x0103 && t.entry 3 == 0x0306) = true := by decide
/-- V125. -/
theorem test_rst :
    after (placed base 0x0200 [0x1D]) (fun t => t.entry 0 == 0x0201 && t.sp == 1 && t.pc == 0x0018) = true := by decide
/-- V126, step 8. -/
theorem test_rst_eighth_push_overwrites_oldest :
    after (placed { base with sp := 7, stk := #v[0x0101, 9, 9, 9, 9, 9, 9, 8] } 0x0008 [0x0D]) (fun t => t.sp == 0 && t.entry 0 == 0x0008 && t.entry 7 == 0x0009) = true := by decide
/-- V130. -/
theorem test_inP :
    after (placed { base with flags := ⟨false, true, false, false⟩, inputs := #v[[], [], [], [0x5A], [], [], [], []] } 0x0200 [0x47]) (fun t => t.reg .a == 0x5A && t.flags == ⟨false, true, false, false⟩ && t.pc == 0x0201) = true := by decide
/-- V134. -/
theorem test_inP_not_output :
    after (placed { base with regs := ⟨0xC3, 0x00, 0x00, 0x00, 0x00, 0x00, 0x00⟩, inputs := #v[[], [], [], [], [], [], [], [0x11, 0x22]] } 0x0200 [0x4F]) (fun t => t.reg .a == 0x11 && t.outputs == []) = true := by decide
/-- V132. -/
theorem test_outP :
    after (placed { base with regs := ⟨0xC3, 0x00, 0x00, 0x00, 0x00, 0x00, 0x00⟩ } 0x0200 [0x51]) (fun t => t.outputs == [⟨8, 0xC3⟩] && t.regs == ⟨0xC3, 0x00, 0x00, 0x00, 0x00, 0x00, 0x00⟩ && t.pc == 0x0201) = true := by decide
/-- V133. -/
theorem test_outP_last_port :
    after (placed { base with regs := ⟨0xC3, 0x00, 0x00, 0x00, 0x00, 0x00, 0x00⟩ } 0x0200 [0x7F]) (fun t => t.outputs == [⟨31, 0xC3⟩]) = true := by decide
/-- V120. -/
theorem test_hlt :
    after (placed { base with regs := ⟨0x10, 0x00, 0x00, 0x00, 0x00, 0x00, 0x00⟩ } 0x0123 [0x00]) (fun t => t.run == .stopped && t.pc == 0x0124 && t.regs == ⟨0x10, 0x00, 0x00, 0x00, 0x00, 0x00, 0x00⟩) = true := by decide
/-- V121. -/
theorem test_hlt_second_byte :
    after (placed { base with regs := ⟨0x10, 0x00, 0x00, 0x00, 0x00, 0x00, 0x00⟩ } 0x0123 [0x01]) (fun t => t.run == .stopped && t.pc == 0x0124 && t.regs == ⟨0x10, 0x00, 0x00, 0x00, 0x00, 0x00, 0x00⟩) = true := by decide
/-- V135. -/
theorem test_hltFF :
    after (placed base 0x3FFF [0xFF]) (fun t => t.run == .stopped && t.pc == 0x0000) = true := by decide

/-- V136. -/
theorem test_undefined_refused :
    (match step (placed base 0x0200 [0x2A]) with
      | .refused r => decide (r = .undefinedOpcode 0x2A)
      | _ => false) = true := by decide

/-! ## The stack policy (10_state.md R32) -/

theorem test_call_refused_at_depth_seven :
    (match step (placed { base with stackPolicy := .fault, depth := 7 } 0x0200 [0x46, 0x00, 0x03]) with
      | .refused r => decide (r = .pushAtDepthSeven)
      | _ => false) = true := by decide
theorem test_ret_refused_at_depth_zero :
    (match step (placed { base with stackPolicy := .fault } 0x0200 [0x07]) with
      | .refused r => decide (r = .popAtDepthZero)
      | _ => false) = true := by decide
/-- A conditional return that is not made is not refused. -/
theorem test_rc_not_taken_at_depth_zero :
    after (placed { base with stackPolicy := .fault } 0x0200 [0x23]) (fun t => t.pc == 0x0201 && t.depth == 0) = true := by decide

/-! ## The interrupt -/

/-- V140. -/
theorem test_interrupt_in_stopped :
    after { (base.setPc 0x0124) with run := .stopped, intreq := true, intByte := 0x1D }
      (fun t => t.run == .running && t.entry 0 == 0x0124 && t.sp == 1 && t.pc == 0x0018 && !t.intreq) = true := by decide
/-- V141. -/
theorem test_interrupt_at_boundary :
    after { (base.setPc 0x0200) with intreq := true, intByte := 0x05 }
      (fun t => t.entry 0 == 0x0200 && t.sp == 1 && t.pc == 0) = true := by decide
/-- V143. -/
theorem test_interrupt_supplies_hlt :
    after { (base.setPc 0x0200) with intreq := true, intByte := 0x00 }
      (fun t => t.run == .stopped && t.pc == 0x0200) = true := by decide
/-- V145. -/
theorem test_interrupt_supplies_jmp :
    after { (placed base 0x0200 [0x34, 0x12]) with intreq := true, intByte := 0x44 }
      (fun t => t.pc == 0x1234) = true := by decide
/-- V144, and a request that lands while STOPPED is pending at the next boundary (60_exceptions.md R253). -/
theorem test_stopped_waits :
    after { base with run := .stopped, intSource := [some 0x0D] }
      (fun t => t.run == .stopped && t.intreq && t.intByte == 0x0D && t.pc == 0) = true := by decide

/-! ## Memory kinds -/

/-- 20_memory.md R55: a store to ROM changes nothing. -/
theorem test_rom_keeps_its_byte :
    after (placed { base with regs := ⟨0x33, 0, 0, 0, 0, 0, 0x80⟩, mem := [(0x80, 0x11)], memMap := [⟨0x80, 16, .rom⟩] } 0x0200 [0xF8])
      (fun t => t.byteAt 0x0080 == 0x11) = true := by decide
/-- 20_memory.md R55: a read of an absent address uses up a draw. -/
theorem test_absent_read_draws :
    after (placed { base with memMap := [⟨0x00, 16, .absent⟩] } 0x0200 [0xC7])
      (fun t => t.draws == 1) = true := by decide

/-! ## The host's entry points -/

theorem test_withFetchWord_runs :
    after (State.reset.withFetchWord 16 0x7736) (fun t => t.reg .l == 0x77 && t.pc == 2) = true := by decide
theorem test_withFetchWord_over_absent :
    after (({ State.reset with memMap := [⟨0, 16384, .absent⟩] } : State).withFetchWord 24 0x123444)
      (fun t => t.pc == 0x1234) = true := by decide

/-! ## Witnesses: states and operands that meet the hypotheses of the obligations, at the ends of their ranges -/

/-- RUNNING with nothing at any address. -/
def unmapped : State := { base with memMap := [⟨0, 16384, .absent⟩] }

/-- The memory pointer at the last address, where ROM stands. -/
def romAtTop : State := { base with regs := ⟨0x80, 0, 0, 0, 0, 0xFF, 0xFF⟩, mem := [(0x3FFF, 0x7E)], memMap := [⟨0x3FFF, 1, .rom⟩] }

/-- An interrupt pending with the byte given, and bytes at `pc`. -/
def interrupted (run : RunState) (j : Byte) (more : List Byte) : State :=
  { placed base 0x3FFE more with run := run, intreq := true, intByte := j }

/-- `DecodeAfterEncode`. -/
theorem witness_well_formed :
    [Instr.inrR .b, .dcrR .l, .outP 8, .outP 31, .inP 7, .rst 7, .jmp 0x3FFF, .call 0, .mviM 0xFF, .hltFF, .undef38].all
      Instr.wellFormed = true := by decide
/-- `DecodedIsWellFormed`, `DecodeTakesWholeInstructions`: one, two and three bytes, with and without bytes after them. -/
theorem witness_decode_answers :
    decode [0x00] = .ok (.hlt, []) ∧ decode [0xFF, 0x44] = .ok (.hltFF, [0x44]) ∧ decode [0x3E, 0xFF] = .ok (.mviM 0xFF, []) ∧
    decode [0x04, 0x00, 0x01] = .ok (.adi 0, [0x01]) ∧ decode [0x7E, 0xFF, 0xFF, 0x00] = .ok (.call 0x3FFF, [0x00]) := by decide
/-- `FirstBytesShareNoInstruction`: each way two first bytes can agree. -/
theorem witness_shared_first_bytes :
    decodeWith 0xC1 0 0 = decodeWith 0xC1 9 9 ∧ decodeWith 0x00 0 0 = decodeWith 0x01 0 0 ∧
    decodeWith 0x44 1 2 = decodeWith 0x7C 1 0xC2 ∧ decodeWith 0x46 1 2 = decodeWith 0x7E 1 2 ∧
    decodeWith 0x07 0 0 = decodeWith 0x3F 0 0 := by decide
/-- `UndefinedFirstBytesAreSix`: both senses. -/
theorem witness_undefined_group :
    groupOf (decodeWith 0x39 0 0) = .undefined ∧ groupOf (decodeWith 0x3B 0 0) ≠ .undefined ∧ 0x39#8 ∈ undefinedBytes := by decide

/-- `MovFromMemoryLoadsM`, `AddMemory`, `SubtractMemory`, `LogicMemory`, `CompareMemory`: a byte is there. -/
theorem witness_operandM_present : OperandM romAtTop 0x7E 0 := .inl ⟨by decide, by decide, by decide⟩
/-- The same statements: nothing is there. -/
theorem witness_operandM_absent : OperandM unmapped (Config.freeByte 0) 1 := .inr ⟨by decide, rfl, by decide⟩
/-- `StoresWriteOnlyM`: both stores, and each kind of address. -/
theorem witness_stores :
    (Instr.mviM 0xFF = .mviM 0xFF ∨ ∃ src, Instr.mviM 0xFF = .movMR src ∧ (0xFF : Byte) = romAtTop.reg src) ∧
    (Instr.movMR .l = .mviM 0xFF ∨ ∃ src, Instr.movMR .l = .movMR src ∧ (0xFF : Byte) = romAtTop.reg src) ∧
    base.kindAt base.mAddr = .ram ∧ romAtTop.kindAt romAtTop.mAddr = .rom ∧ unmapped.kindAt unmapped.mAddr = .absent :=
  ⟨.inl rfl, .inr ⟨.l, rfl, by decide⟩, by decide, by decide, by decide⟩
/-- `IncrementKeepsTheCarry`, `DecrementKeepsTheCarry`. -/
theorem witness_register_not_a : Reg.b ≠ .a ∧ Reg.l ≠ .a := by decide

/-- `EncodedAs`, in every obligation that speaks of it and in `StepRunsTheDecodedInstruction`: the bytes stand at `pc`, across
the end of memory. -/
theorem witness_at_instr : ∀ bytes ∈ ([[0b11000001], [0b11110110], [0b00110110, 0xFF], [0b00001000], [0b00110000], [0b00001001],
      [0b00110001], [0x00], [0x01], [0x38], [0x39], [0b00010010], [0b00011010], [0b01000100, 0x00, 0x00], [0b01111100, 0xFF, 0xFF],
      [0xFF], []] : List (List Byte)), (placed base 0x3FFE bytes).AtInstr bytes := by
  unfold State.AtInstr State.BytesAt
  decide
/-- `StepRunsTheDecodedInstruction`: the bytes decode, and stand at `pc`. -/
theorem witness_step_runs_the_decoded :
    decode [0x7C, 0xFF, 0xFF] = .ok (.jmp 0x3FFF, []) ∧ (placed base 0x3FFE [0x7C, 0xFF, 0xFF]).AtInstr [0x7C, 0xFF, 0xFF] :=
  ⟨by decide, witness_at_instr _ (by decide)⟩
/-- `JumpGoesToItsTarget`, `EncodingTablesDecode`: the least and the greatest target. -/
theorem witness_jump_target :
    (0x0000#14).toNat = ((0x00#8).toNat % 64) * 256 + (0x00#8).toNat ∧
    (0x3FFF#14).toNat = ((0xFF#8).toNat % 64) * 256 + (0xFF#8).toNat := by decide
/-- `DontCareBitsSelectNothing`: a conditional jump and a conditional call whose third bytes differ in bits 7..6 alone. -/
theorem witness_third_byte :
    instrLength 0x40 = 3 ∧ instrLength 0x7A = 3 ∧ (0x3F#8).toNat % 64 = (0xFF#8).toNat % 64 ∧ (0x00#8).toNat % 64 = (0xC0#8).toNat % 64 := by
  decide
/-- The conditional transfers: a state on each side of every flag. -/
theorem witness_flags_each_way :
    ∃ s u : State, s.flags = ⟨true, true, true, true⟩ ∧ u.flags = ⟨false, false, false, false⟩ :=
  ⟨{ base with flags := ⟨true, true, true, true⟩ }, base, rfl, rfl⟩

/-- The platform's stack policy `fault`, at a depth. -/
def cautious (d : Int) : State := { base with stackPolicy := .fault, depth := d }

/-- `CallSavesTheReturnAddress`, `RestartCallsEightTimesN`, `ReturnExposesTheEntryBelow`, `StepStopsExactlyOnUndefinedBytesAndTheStackPolicy`: the policy lets
and refuses, at the ends of the depth. -/
theorem witness_policy :
    (¬ base.PushRefused ∧ ¬ base.PopRefused) ∧ (¬ (cautious 6).PushRefused ∧ (cautious 7).PushRefused) ∧
    (¬ (cautious 1).PopRefused ∧ (cautious 0).PopRefused) := by
  unfold State.PushRefused State.PopRefused
  decide
/-- `ConditionalCallsTestTheirFlag`, `ConditionalReturnsTestTheirFlag`: taken and not, let and refused. -/
theorem witness_conditional :
    ((Instr.cnc 0, true) ∈ ([(.cnc 0, !base.flags.cy), (.cc 0, base.flags.cy)] : List (Instr × Bool))) ∧
    ((Instr.rc, false) ∈ ([(.rnc, !base.flags.cy), (.rc, base.flags.cy)] : List (Instr × Bool))) ∧
    (true = true → ¬ base.PushRefused) ∧ (false = true → ¬ (cautious 0).PopRefused) ∧ (cautious 7).PushRefused :=
  ⟨by decide, by decide, fun _ => witness_policy.1.1, nofun, witness_policy.2.1.2⟩
/-- `SevenNestedCallsReturn`: none and seven, under each policy; `EighthNestedCallOverwritesTheOldest`: seven, under each policy. -/
theorem witness_nested_targets :
    ([] : List Addr).length ≤ 7 ∧ ([1, 2, 3, 4, 5, 6, 7] : List Addr).length = 7 ∧ base.stackPolicy = .wrap ∧
    (0 ≤ (cautious 0).depth ∧ (cautious 0).depth + ([1, 2, 3, 4, 5, 6, 7] : List Addr).length ≤ 7) ∧
    (0 ≤ (cautious 7).depth ∧ (cautious 7).depth + ([] : List Addr).length ≤ 7) ∧
    (cautious 0).stackPolicy = .fault ∧ (cautious 0).depth = 0 := by decide

/-- `InputLoadsTheAccumulator`: a stream of one byte, an empty one, and another port. -/
theorem witness_streams :
    (base.setStream 7 [0x5A]).stream 7 = 0x5A :: [] ∧ base.stream 0 = [] ∧ (0 : BitVec 3) ≠ 7 := by decide
/-- `OutputAppendsOneEvent`, `EncodingTablesDecode`. -/
theorem witness_output_ports : 8 ≤ (8#5).toNat ∧ 8 ≤ (31#5).toNat := by decide
/-- `HaltEntersStopped`. -/
theorem witness_halts :
    (Instr.hlt = .hlt ∨ Instr.hlt = .hltFF) ∧ (Instr.hltFF = .hlt ∨ Instr.hltFF = .hltFF) := by decide

/-- `AbsentFetchDrawsItsByte`, at the last address. -/
theorem witness_absent_fetch :
    (unmapped.setPc 0x3FFF).run = .running ∧ (unmapped.setPc 0x3FFF).intreq = false ∧
    (unmapped.setPc 0x3FFF).kindAt (unmapped.setPc 0x3FFF).pc = .absent := by decide
/-- `InterruptSuppliesTheFirstByte`: one, two and three bytes, RUNNING and STOPPED. -/
theorem witness_interrupt_first_byte :
    ((interrupted .stopped 0x05 []).intreq = true ∧ decode ((interrupted .stopped 0x05 []).intByte :: []) = .ok (.rst 0, []) ∧
      (interrupted .stopped 0x05 []).BytesAt (interrupted .stopped 0x05 []).pc []) ∧
    ((interrupted .running 0x06 [0xFF]).intreq = true ∧
      decode ((interrupted .running 0x06 [0xFF]).intByte :: [0xFF]) = .ok (.mviR .a 0xFF, []) ∧
      (interrupted .running 0x06 [0xFF]).BytesAt (interrupted .running 0x06 [0xFF]).pc [0xFF]) ∧
    ((interrupted .running 0x7E [0xFF, 0xFF]).intreq = true ∧
      decode ((interrupted .running 0x7E [0xFF, 0xFF]).intByte :: [0xFF, 0xFF]) = .ok (.call 0x3FFF, []) ∧
      (interrupted .running 0x7E [0xFF, 0xFF]).BytesAt (interrupted .running 0x7E [0xFF, 0xFF]).pc [0xFF, 0xFF]) := by
  unfold State.BytesAt
  decide
/-- `InterruptRestartSavesTheNextAddress`: the first and the last restart, the push let and refused. -/
theorem witness_interrupt_restart :
    (interrupted .stopped 0x05 []).intreq = true ∧ (interrupted .stopped 0x05 []).intByte = opByte 0b00#2 0 0b101#3 ∧
    (interrupted .running 0x3D []).intreq = true ∧ (interrupted .running 0x3D []).intByte = opByte 0b00#2 7 0b101#3 ∧
    ¬ (interrupted .running 0x3D []).PushRefused ∧
    ({ interrupted .running 0x3D [] with stackPolicy := .fault, depth := 7 } : State).PushRefused := by
  unfold State.PushRefused
  decide
/-- `StoppedWaitsForAnInterrupt`: with and without a request coming. -/
theorem witness_stopped :
    State.reset.run = .stopped ∧ State.reset.intreq = false ∧ State.reset.intSource ≠ [] ∧
    ({ State.reset with intSource := [] } : State).intSource = [] := by decide

/-- Whether a step, or an instruction, answers a next state. -/
def answers (r : Result) : Bool := holds r (fun _ => true)

theorem next_of_answers {r : Result} (h : answers r = true) : ∃ t, r = .next t := by
  cases r with
  | next t => exact ⟨t, rfl⟩
  | fault _ => cases h
  | refused _ => cases h

/-- `PendingExactlyWhenRaised`, `OutputHistoryOnlyGrows`: idle with INT raised; an output with INT left alone. -/
theorem witness_step_answers :
    (∃ t, step State.reset = .next t) ∧ State.reset.intSource = some 0x05 :: [] ∧
    (∃ t, step (placed { base with intSource := [none] } 0x3FFF [0x7F]) = .next t) ∧ base.intSource = [] :=
  ⟨next_of_answers (by decide), rfl, next_of_answers (by decide), rfl⟩
/-- `EveryStepKeepsTheInvariant`: the invariant holds where the store runs, with something in memory and in the history. -/
theorem witness_step_with_invariant :
    (placed { base with outputs := [⟨8, 1⟩] } 0 [0x3E, 0x99]).Inv ∧
    ∃ t, step (placed { base with outputs := [⟨8, 1⟩] } 0 [0x3E, 0x99]) = .next t :=
  ⟨by unfold State.Inv; decide, next_of_answers (by decide)⟩
/-- `EveryStepKeepsTheInvariant`: the last call that the policy `fault` lets. -/
theorem witness_step_with_invariant_at_depth_six :
    (placed (cautious 6) 0 [0x46, 0, 1]).Inv ∧ ∃ t, step (placed (cautious 6) 0 [0x46, 0, 1]) = .next t :=
  ⟨by unfold State.Inv; decide, next_of_answers (by decide)⟩
/-- `NoStepChangesRom`: a store that meets ROM, and an address that is not RAM. -/
theorem witness_step_with_rom :
    (∃ t, step (placed romAtTop 0 [0x3E, 0x99]) = .next t) ∧ (placed romAtTop 0 [0x3E, 0x99]).kindAt 0x3FFF ≠ .ram :=
  ⟨next_of_answers (by decide), by decide⟩
/-- `StepTouchesTwoStackEntries`: a call and a return, and entries it speaks of. -/
theorem witness_step_moves_sp :
    (∃ t, step (placed base 0 [0x46, 0, 1]) = .next t) ∧ (∃ t, step (placed base 0 [0x07]) = .next t) ∧
    (2 : BitVec 3) ≠ (placed base 0 [0x07]).sp ∧ (7 : BitVec 3) ≠ (placed base 0 [0x07]).sp + 1 :=
  ⟨next_of_answers (by decide), next_of_answers (by decide), by decide, by decide⟩
/-- `StepStopsExactlyOnUndefinedBytesAndTheStackPolicy`: an undefined byte fetched, one supplied by the interrupt, a defined one, and none. -/
theorem witness_first_bytes :
    0x22#8 ∈ undefinedBytes ∧ (placed base 0 [0x22]).firstByte = some 0x22 ∧ (interrupted .stopped 0x39 []).firstByte = some 0x39 ∧
    (∀ op ∈ undefinedBytes, (placed base 0 [0x23]).firstByte ≠ some op) ∧
    (∀ op ∈ undefinedBytes, State.reset.firstByte ≠ some op) := by decide
/-- `StepStopsExactlyOnUndefinedBytesAndTheStackPolicy`: at depth 7 a call fetched and a restart supplied are refused and a call not made
runs; at depth 0 a return is refused and a return not made runs. -/
theorem witness_policy_stops :
    step (placed (cautious 7) 0 [0x46, 0, 1]) = .refused .pushAtDepthSeven ∧
    step { interrupted .stopped 0x05 [] with stackPolicy := .fault, depth := 7 } = .refused .pushAtDepthSeven ∧
    (∃ t, step (placed (cautious 7) 0 [0x62, 0, 1]) = .next t) ∧ (∃ t, step (placed (cautious 7) 0 [0x07]) = .next t) ∧
    step (placed (cautious 0) 0 [0x07]) = .refused .popAtDepthZero ∧ (∃ t, step (placed (cautious 0) 0 [0x23]) = .next t) ∧
    (placed (cautious 7) 0 [0x46, 0, 1]).NextPushes ∧ (placed (cautious 0) 0 [0x07]).NextPops :=
  ⟨rfl, rfl, next_of_answers (by decide), next_of_answers (by decide), rfl, next_of_answers (by decide),
    ⟨.call 0x100, (placed (cautious 7) 0 [0x46, 0, 1]).setPc 3, by decide, rfl⟩, ⟨.ret, (placed (cautious 0) 0 [0x07]).setPc 1, by decide, rfl⟩⟩
/-- `EncodingTablesDecode`: the first and the last register that `INR` and `DCR` may name. -/
theorem witness_step_registers : Reg.b ≠ .a ∧ Reg.l ≠ .a := by decide
/-- `OnlyTheStoresWriteMemory`, `FlagAndRegisterTable`: an instruction of every group that answers. -/
theorem witness_exec_answers : ∀ i ∈ [Instr.movRR .a .l, .movRM .h, .inrR .l, .dcrR .b, .addM, .cmpM, .ral, .jmp 0x3FFF, .cnc 0, .rpe,
      .rst 7, .inP 7, .outP 8, .outP 31, .hlt, .hltFF],
    (∃ t, exec i romAtTop = .next t) ∧ (∀ src, i ≠ .movMR src) ∧ ∀ v, i ≠ .mviM v := by
  intro i h
  refine ⟨next_of_answers ?_, ?_, ?_⟩
  · revert i h; decide
  · rintro src rfl; cases src <;> exact absurd h (by decide)
  · rintro v rfl; simp at h
/-- `StoreIsSeenByTheNextFetch`, at the last address, for both stores: each stores the first byte of a `JMP` whose further bytes follow. -/
theorem witness_store_at_pc :
    let s := (placed { base with regs := ⟨0x44, 0, 0, 0, 0, 0x3F, 0xFF⟩ } 0x0000 [0x34, 0x12]).setPc 0x3FFF
    (Instr.movMR .a = .mviM 0x44 ∨ ∃ src, Instr.movMR .a = .movMR src ∧ (0x44 : Byte) = s.reg src) ∧
    (Instr.mviM 0x44 = .mviM 0x44 ∨ ∃ src, Instr.mviM 0x44 = .movMR src ∧ (0x44 : Byte) = s.reg src) ∧
    s.kindAt s.mAddr = .ram ∧ s.pc = s.mAddr ∧ s.run = .running ∧ s.intreq = false ∧
    decode (0x44 :: [0x34, 0x12]) = .ok (.jmp 0x1234, []) ∧ s.BytesAt (s.pc + 1) [0x34, 0x12] := by
  refine ⟨.inr ⟨.a, rfl, by decide⟩, .inl rfl, by decide, by decide, by decide, by decide, by decide, ?_⟩
  unfold State.BytesAt
  decide

/-- A platform that boots with `RST 7`, under the policy `fault`, from other power-on values and with its own contents. -/
def otherPlatform : Platform :=
  { Platform.standard with
    mem := [(0x38, 0xC0)], bootInstruction := 0x3D, stackPolicy := .fault, speedGrade := .i8008_1
    powerOn := { Platform.standard.powerOn with sp := 7, flags := ⟨true, true, true, true⟩ } }

/-- `PowerOnHasTheInvariant`, `BootReachesAddressZero`. -/
theorem witness_platform :
    otherPlatform.mem.wf ∧ otherPlatform.bootInstruction = opByte 0b00#2 7 0b101#3 ∧ otherPlatform.intSource = [] := by decide

end Sys2Proof.Tests
end

section
/-! SUPPORT and the statements of 00_scope.md: what the decoder takes from a list of bytes, the fetch of bytes that stand in memory, the
environment's action on INT, the step in each of its three situations; then the step, the power-on state and the boot. -/

namespace Sys2Proof

/-! ## Decoding a list of bytes -/

/-- A decoded list is the first byte, the further bytes its length asks for, and what is left (30_encoding.md R80, R89). -/
theorem decode_cons_cases {op : Byte} {rest tail : List Byte} {i : Instr} (h : decode (op :: rest) = .ok (i, tail)) :
    (instrLength op = 1 ∧ rest = tail ∧ i = decodeWith op 0 0)
      ∨ (∃ b2, instrLength op = 2 ∧ rest = b2 :: tail ∧ i = decodeWith op b2 0)
      ∨ ∃ b2 b3, instrLength op = 3 ∧ rest = b2 :: b3 :: tail ∧ i = decodeWith op b2 b3 := by
  simp only [decode] at h
  split at h
  · rename_i len
    cases h
    exact .inl ⟨len, rfl, rfl⟩
  · rename_i b2 _ len
    cases h
    exact .inr (.inl ⟨b2, len, rfl, rfl⟩)
  · rename_i b2 b3 _ len
    cases h
    exact .inr (.inr ⟨b2, b3, len, rfl, rfl⟩)
  · cases h

/-- The pattern `00 AAA 101` is `RST AAA` (30_encoding.md R90). -/
theorem decode_restart (n : BitVec 3) : decode [opByte 0b00#2 n 0b101#3] = .ok (.rst n, []) := by
  revert n; decide

end Sys2Proof

namespace Sys2Proof.Machine

/-! ## `pc` written -/

@[simp] theorem State.setPc_pc_self (s : State) : s.setPc s.pc = s := by
  simp [State.setPc, State.setEntry, State.pc, State.entry]

@[simp] theorem State.setPc_setPc (s : State) (a b : Addr) : (s.setPc a).setPc b = s.setPc b := by
  simp [State.setPc, State.setEntry]

/-! ## Bytes that stand in memory -/

/-- One address further and then `k` is `k + 1` further, modulo 2^14. -/
theorem addr_add_one_add (a : Addr) (k : Nat) : a + 1 + BitVec.ofNat 14 k = a + BitVec.ofNat 14 (k + 1) := by
  rw [BitVec.ofNat_add, BitVec.add_comm (BitVec.ofNat 14 k), BitVec.add_assoc]
  rfl

@[simp] theorem State.bytesAt_nil (s : State) (a : Addr) : s.BytesAt a [] := nofun

/-- The first byte stands at the first address, the others from the next one on. -/
theorem State.bytesAt_cons {s : State} {a : Addr} {b : Byte} {rest : List Byte} (h : s.BytesAt a (b :: rest)) :
    s.kindAt a ≠ .absent ∧ s.byteAt a = b ∧ s.BytesAt (a + 1) rest := by
  obtain ⟨present, holds⟩ : s.kindAt a ≠ .absent ∧ s.byteAt a = b := by
    simpa using h 0 (Nat.zero_lt_succ _)
  refine ⟨present, holds, fun k hk => ?_⟩
  rw [addr_add_one_add]
  exact h (k + 1) (Nat.succ_lt_succ hk)

/-- A fetch of the first of the bytes at `pc` gives it, and leaves the others at the new `pc` (10_state.md R30). -/
theorem State.fetch_of_bytesAt {s : State} {b : Byte} {rest : List Byte} (h : s.BytesAt s.pc (b :: rest)) :
    s.fetch = (b, s.setPc (s.pc + 1)) ∧ (s.setPc (s.pc + 1)).BytesAt (s.setPc (s.pc + 1)).pc rest := by
  obtain ⟨present, holds, others⟩ := State.bytesAt_cons h
  exact ⟨by rw [State.fetch_of_present s present, holds], by rw [State.pc_setPc]; exact others⟩

/-! ## The further bytes of an instruction -/

theorem State.fetchRest_of_length_one (s : State) {op : Byte} (h : instrLength op = 1) :
    s.fetchRest op = (decodeWith op 0 0, s) := by
  simp [State.fetchRest, h]

theorem State.fetchRest_of_length_two (s : State) {op : Byte} (h : instrLength op = 2) :
    s.fetchRest op = (decodeWith op s.fetch.1 0, s.fetch.2) := by
  simp [State.fetchRest, h]

theorem State.fetchRest_of_length_three (s : State) {op : Byte} (h : instrLength op = 3) :
    s.fetchRest op = (decodeWith op s.fetch.1 s.fetch.2.fetch.1, s.fetch.2.fetch.2) := by
  simp [State.fetchRest, h]

/-- Where the further bytes of an instruction stand at `pc`, fetching them gives what the decoder reads, and `pc` past them. -/
theorem State.fetchRest_of_decode {s : State} {op : Byte} {more : List Byte} {i : Instr}
    (hd : decode (op :: more) = .ok (i, [])) (hb : s.BytesAt s.pc more) :
    s.fetchRest op = (i, s.setPc (s.pc + BitVec.ofNat 14 more.length)) := by
  rcases decode_cons_cases hd with ⟨len, rfl, rfl⟩ | ⟨b2, len, rfl, rfl⟩ | ⟨b2, b3, len, rfl, rfl⟩
  · simp [State.fetchRest_of_length_one s len]
  · obtain ⟨second, _⟩ := State.fetch_of_bytesAt hb
    simp [State.fetchRest_of_length_two s len, second]
  · obtain ⟨second, rest⟩ := State.fetch_of_bytesAt hb
    obtain ⟨third, _⟩ := State.fetch_of_bytesAt rest
    have past : s.pc + 1 + 1 = s.pc + BitVec.ofNat 14 2 := addr_add_one_add s.pc 1
    simp only [State.fetchRest_of_length_three s len, second, third, State.pc_setPc, State.setPc_setPc, past,
      List.length_cons, List.length_nil]

/-- Where the bytes of an instruction stand at `pc`, the instruction fetched is what the decoder reads, and `pc` is past them. -/
theorem State.fetchInstr_of_decode {s : State} {bytes : List Byte} {i : Instr}
    (hd : decode bytes = .ok (i, [])) (hb : s.BytesAt s.pc bytes) :
    s.fetchInstr = (i, s.setPc (s.pc + BitVec.ofNat 14 bytes.length)) := by
  cases bytes with
  | nil => cases hd
  | cons op more =>
    obtain ⟨first, rest⟩ := State.fetch_of_bytesAt hb
    simp only [State.fetchInstr, first, State.fetchRest_of_decode hd rest, State.pc_setPc, State.setPc_setPc,
      addr_add_one_add, List.length_cons]

/-! ## `s.pollInt` -/

@[simp] theorem State.pollInt_regs (s : State) : s.pollInt.regs = s.regs := by rw [State.pollInt_eq]
@[simp] theorem State.pollInt_flags (s : State) : s.pollInt.flags = s.flags := by rw [State.pollInt_eq]
@[simp] theorem State.pollInt_stk (s : State) : s.pollInt.stk = s.stk := by rw [State.pollInt_eq]
@[simp] theorem State.pollInt_sp (s : State) : s.pollInt.sp = s.sp := by rw [State.pollInt_eq]
@[simp] theorem State.pollInt_depth (s : State) : s.pollInt.depth = s.depth := by rw [State.pollInt_eq]
@[simp] theorem State.pollInt_run (s : State) : s.pollInt.run = s.run := by rw [State.pollInt_eq]
@[simp] theorem State.pollInt_mem (s : State) : s.pollInt.mem = s.mem := by rw [State.pollInt_eq]
@[simp] theorem State.pollInt_memMap (s : State) : s.pollInt.memMap = s.memMap := by rw [State.pollInt_eq]
@[simp] theorem State.pollInt_stackPolicy (s : State) : s.pollInt.stackPolicy = s.stackPolicy := by rw [State.pollInt_eq]
@[simp] theorem State.pollInt_inputs (s : State) : s.pollInt.inputs = s.inputs := by rw [State.pollInt_eq]
@[simp] theorem State.pollInt_outputs (s : State) : s.pollInt.outputs = s.outputs := by rw [State.pollInt_eq]
@[simp] theorem State.pollInt_draws (s : State) : s.pollInt.draws = s.draws := by rw [State.pollInt_eq]
@[simp] theorem State.pollInt_intSource (s : State) : s.pollInt.intSource = s.intSource.tail := by rw [State.pollInt_eq]
@[simp] theorem State.pollInt_reg (s : State) (q : Reg) : s.pollInt.reg q = s.reg q := by simp [State.reg]
@[simp] theorem State.pollInt_entry (s : State) (j : BitVec 3) : s.pollInt.entry j = s.entry j := by simp [State.entry]
@[simp] theorem State.pollInt_byteAt (s : State) (a : Addr) : s.pollInt.byteAt a = s.byteAt a := by simp [State.byteAt]
@[simp] theorem State.pollInt_kindAt (s : State) (a : Addr) : s.pollInt.kindAt a = s.kindAt a := by simp [State.kindAt]
@[simp] theorem State.pollInt_pc (s : State) : s.pollInt.pc = s.pc := by simp [State.pc]

/-- A schedule used up changes nothing (60_exceptions.md R253). -/
theorem State.pollInt_of_nil {s : State} (h : s.intSource = []) : s.pollInt = s := by
  simp [State.pollInt, h]

/-- A request is pending after the environment raised INT, with its byte held ready (60_exceptions.md R253). -/
theorem State.pollInt_of_raise {s : State} {j : Byte} {rest : List (Option Byte)} (h : s.intSource = some j :: rest) :
    s.pollInt.intreq = true ∧ s.pollInt.intByte = j := by
  simp [State.pollInt, h]

/-! ## The step: in STOPPED, under an interrupt, and from memory -/

/-- In STOPPED with nothing pending only the environment acts (44_machine.md R242). -/
theorem step_of_stopped {s : State} (hrun : s.run = .stopped) (hint : s.intreq = false) : step s = .next s.pollInt := by
  simp [step, State.nextInstr, hrun, hint]

/-- A pending interrupt runs what its byte and the bytes at `pc` decode to (60_exceptions.md R254). -/
theorem step_of_interrupt {s : State} {i : Instr} {more : List Byte} (hint : s.intreq = true)
    (hd : decode (s.intByte :: more) = .ok (i, [])) (hb : s.BytesAt s.pc more) :
    step s = endStep (exec i (s.enterInterrupt.setPc (s.pc + BitVec.ofNat 14 more.length))) := by
  have rest : s.enterInterrupt.BytesAt s.enterInterrupt.pc more := hb
  have supplied : s.interruptInstr = (i, s.enterInterrupt.setPc (s.pc + BitVec.ofNat 14 more.length)) :=
    State.fetchRest_of_decode hd rest
  simp [step, State.nextInstr, hint, supplied]

/-- RUNNING with nothing pending, the step runs what the bytes at `pc` decode to (00_scope.md R12). -/
theorem step_of_atInstr {s : State} {i : Instr} {bytes : List Byte} (hd : decode bytes = .ok (i, [])) (h : s.AtInstr bytes) :
    step s = endStep (exec i (s.setPc (s.pc + BitVec.ofNat 14 bytes.length))) := by
  obtain ⟨hrun, hint, hb⟩ := h
  simp [step, State.nextInstr, hrun, hint, State.fetchInstr_of_decode hd hb]

/-- Settles O44: the fetch of the bytes at `pc` agrees with the decoder. -/
theorem stepRunsTheDecodedInstruction : Obligations.StepRunsTheDecodedInstruction :=
  fun _ _ hd _ h => step_of_atInstr hd h

/-! ## Restarts -/

/-- The entry point of `RST n` is 8 * n (20_memory.md R54, 42_pc_stack_control.md R209). -/
theorem restartAddr_eq (n : BitVec 3) : restartAddr n = BitVec.ofNat 14 (8 * n.toNat) := by
  revert n; decide

theorem exec_rst (n : BitVec 3) (s : State) : exec (.rst n) s = s.tryPush (restartAddr n) := rfl

/-- Where the stack policy lets a push, it is made. -/
theorem State.tryPush_of_allowed {s : State} (t : Addr) (h : ¬ s.PushRefused) : s.tryPush t = .next (s.push t) := by
  rcases s.tryPush_cases t with ⟨_, e⟩ | ⟨refused, _⟩
  · exact e
  · exact absurd refused h

/-- An interrupt that supplies `RST n`, where the stack policy lets its push: no byte is fetched, so the entry left behind is `pc`
(60_exceptions.md R254 to R257). -/
theorem step_of_interrupt_restart {s : State} {n : BitVec 3} (hint : s.intreq = true) (hbyte : s.intByte = opByte 0b00#2 n 0b101#3)
    (hpush : ¬ s.PushRefused) : step s = .next (s.enterInterrupt.push (restartAddr n)).pollInt := by
  have allowed : ¬ s.enterInterrupt.PushRefused := hpush
  have back : s.enterInterrupt.setPc (s.pc + BitVec.ofNat 14 0) = s.enterInterrupt := by
    simpa using s.enterInterrupt.setPc_pc_self
  rw [step_of_interrupt hint (hbyte ▸ decode_restart n) (s.bytesAt_nil s.pc), List.length_nil, back, exec_rst,
    State.tryPush_of_allowed _ allowed, endStep]

/-! ## Power-on and the boot -/

theorem State.powerOn_reg (p : Platform) (r : Reg) : (State.powerOn p).reg r = p.powerOn.regs.get r := rfl

theorem State.powerOn_entry (p : Platform) (k : BitVec 3) :
    (State.powerOn p).entry k = p.powerOn.stk[k.toNat]'k.isLt := rfl

theorem State.powerOn_byteAt (p : Platform) (a : Addr) : (State.powerOn p).byteAt a = p.mem.read a.toNat := rfl

/-- The option `cleared` zeroes the seven registers (10_state.md R40). -/
theorem PowerOnValues.cleared_reg (f : Flags) (r : Reg) : (PowerOnValues.cleared f).regs.get r = 0 := by
  cases r <;> rfl

/-- The option `cleared` zeroes the eight stack entries (10_state.md R40). -/
theorem PowerOnValues.cleared_entry (f : Flags) (k : BitVec 3) : (PowerOnValues.cleared f).stk[k.toNat]'k.isLt = 0 := by
  simp [PowerOnValues.cleared]

/-- An address that the empty memory does not list holds 00H, and in no region it is RAM (20_memory.md R55). -/
theorem State.reset_memory (a : Addr) : State.reset.byteAt a = 0 ∧ State.reset.kindAt a = .ram := ⟨rfl, rfl⟩

/-- Settles O59: each platform's parameters stand in its power-on state, and the standard platform's are the cleared ones. -/
theorem powerOnState : Obligations.PowerOnState := by
  refine ⟨fun p => ?platform, rfl, ?registers, rfl, ?entries, rfl, ?bytes, ?kinds, rfl⟩
  case platform =>
    exact ⟨rfl, rfl, State.powerOn_reg p, rfl, State.powerOn_entry p, rfl, rfl, State.powerOn_byteAt p, rfl, rfl, rfl, rfl, rfl⟩
  case registers => exact PowerOnValues.cleared_reg Platform.standard.powerOn.flags
  case entries => exact PowerOnValues.cleared_entry Platform.standard.powerOn.flags
  case bytes => exact fun a => (State.reset_memory a).1
  case kinds => exact fun a => (State.reset_memory a).2

theorem stepN_succ_of_next {s t : State} (n : Nat) (h : step s = .next t) : stepN (n + 1) s = stepN n t := by
  simp [stepN, h]

/-- The state two steps after power-on: INT is raised in the first, which idles in STOPPED, and the second takes the restart. At
depth 0 neither stack policy refuses its push (70_reset_and_hazards.md R292). -/
theorem stepN_two_powerOn {p : Platform} {n : BitVec 3} (hboot : p.bootInstruction = opByte 0b00#2 n 0b101#3) :
    stepN 2 (State.powerOn p) = .next ((State.powerOn p).pollInt.enterInterrupt.push (restartAddr n)).pollInt := by
  have idle : step (State.powerOn p) = .next (State.powerOn p).pollInt := step_of_stopped rfl rfl
  obtain ⟨pending, byte⟩ : (State.powerOn p).pollInt.intreq = true ∧ (State.powerOn p).pollInt.intByte = p.bootInstruction :=
    State.pollInt_of_raise rfl
  have allowed : ¬ (State.powerOn p).pollInt.PushRefused := by
    simp [State.PushRefused, State.powerOn]
  have taken := step_of_interrupt_restart pending (byte.trans hboot) allowed
  rw [stepN_succ_of_next 1 idle, stepN_succ_of_next 0 taken, stepN]

/-- Two steps after power-on the machine is RUNNING at the entry point of its boot restart, one stack level used
(70_reset_and_hazards.md R292, decision D11). -/
theorem boot_restart_reaches_its_entry {p : Platform} {n : BitVec 3} (hboot : p.bootInstruction = opByte 0b00#2 n 0b101#3) :
    ∃ t, stepN 2 (State.powerOn p) = .next t ∧ t.run = .running ∧ t.pc = BitVec.ofNat 14 (8 * n.toNat) ∧
      t.sp = p.powerOn.sp + 1 ∧ t.depth = 1 ∧ (p.intSource = [] → t.intreq = false) := by
  refine ⟨_, stepN_two_powerOn hboot, ?running, ?pc, ?sp, ?depth, fun hnone => ?quiet⟩
  case running => simp
  case pc => simp [restartAddr_eq]
  case sp => simp [State.powerOn]
  case depth => simp [State.powerOn]
  case quiet =>
    rw [State.pollInt_of_nil (by simp [State.powerOn, hnone])]
    simp

/-- Settles O60: idling in STOPPED raises the boot request, and the restart it supplies pushes once. -/
theorem bootReachesAddressZero : Obligations.BootReachesAddressZero := by
  refine ⟨fun _ _ => boot_restart_reaches_its_entry, ?_⟩
  have default_boot : Platform.standard.bootInstruction = opByte 0b00#2 0 0b101#3 := by decide
  obtain ⟨t, two, running, pc, sp, _, quiet⟩ := boot_restart_reaches_its_entry default_boot
  exact ⟨t, two, running, quiet rfl, pc, sp⟩

end Sys2Proof.Machine
end

section
/-! SUPPORT and the statements of 10_state.md: the register codes, the memory pointer and the flags of a result as numbers; nested calls
and returns; what the instructions of each group write; what a step does to the address stack. -/

namespace Sys2Proof

/-! ## Register codes -/

/-- A code names a register exactly when it is that register's code (10_state.md R21). -/
theorem Reg.ofCode_eq_some_iff (r : Reg) (code : BitVec 3) : Reg.ofCode code = some r ↔ r.code = code := by
  have named : ∀ code : BitVec 3, ∀ r ∈ Reg.ofCode code, r.code = code := by decide
  constructor
  · exact named code r
  · rintro rfl
    exact Reg.ofCode_code r

/-- Settles O1: decoding a code inverts `Reg.code`, and 111 is no register's code. -/
theorem registerCodesFollowTheTable : Obligations.RegisterCodesFollowTheTable :=
  ⟨Reg.ofCode_code .a, Reg.ofCode_code .b, Reg.ofCode_code .c, Reg.ofCode_code .d, Reg.ofCode_code .e, Reg.ofCode_code .h,
    Reg.ofCode_code .l, rfl, Reg.ofCode_eq_some_iff⟩

end Sys2Proof

namespace Sys2Proof.Machine

/-! ## The memory pointer -/

/-- Settles O13: an append is a shift by the eight bits of L and a sum (10_state.md R24). -/
theorem memoryPointerIsHAndL : Obligations.MemoryPointerIsHAndL := by
  intro s
  have below : (s.reg .l).toNat < 2 ^ 8 := (s.reg .l).isLt
  rw [State.mAddr, BitVec.toNat_append, ← Nat.shiftLeft_add_eq_or_of_lt below, Nat.shiftLeft_eq, BitVec.extractLsb'_toNat]
  simp

/-! ## Zero, sign and parity -/

/-- The one bits of a byte, counted one position at a time. -/
theorem onesCount_eq_countP (v : Byte) : onesCount v = (List.range 8).countP (fun k => v.toNat.testBit k) := by
  simp [onesCount, List.range_succ, List.countP_cons, BitVec.getLsbD, Bool.toNat, Bool.cond_eq_ite]

theorem byte_sign_iff (v : Byte) : v.getLsbD 7 = true ↔ 128 ≤ v.toNat := by
  have sign : v.msb = v.getLsbD 7 := rfl
  rw [← sign, BitVec.msb_eq_decide, decide_eq_true_iff]

/-- Settles O17: each flag of `SetZSP` is its test of the result as a number. -/
theorem zeroSignAndParityOfAResult : Obligations.ZeroSignAndParityOfAResult := by
  intro f v
  refine ⟨?zero, byte_sign_iff v, ?parity, rfl⟩
  case zero =>
    show (v == 0) = true ↔ v.toNat = 0
    rw [beq_iff_eq, ← BitVec.toNat_inj]
    rfl
  case parity =>
    rw [← onesCount_eq_countP]
    exact evenParity_iff v

/-! ## Lists of calls and of returns -/

theorem exec_call (target : Addr) (s : State) : exec (.call target) s = s.tryPush target := rfl

theorem exec_ret (s : State) : exec .ret s = s.tryPop := rfl

/-- Where the stack policy lets a pop, it is made. -/
theorem State.tryPop_of_allowed {s : State} (h : ¬ s.PopRefused) : s.tryPop = .next s.pop := by
  rcases s.tryPop_cases with ⟨_, e⟩ | ⟨refused, _⟩
  · exact e
  · exact absurd refused h

theorem execAll_cons_of_next {i : Instr} {rest : List Instr} {s t : State} (h : exec i s = .next t) :
    execAll (i :: rest) s = execAll rest t := by
  simp [execAll, h]

theorem execAll_append_of_next {xs ys : List Instr} {s t : State} (h : execAll xs s = .next t) :
    execAll (xs ++ ys) s = execAll ys t := by
  induction xs generalizing s with
  | nil =>
    cases h
    rfl
  | cons i rest ih =>
    cases hi : exec i s with
    | next u => exact (execAll_cons_of_next hi).trans (ih ((execAll_cons_of_next hi).symm.trans h))
    | fault r => cases r
    | refused r => simp [execAll, hi] at h

theorem SameOutsideStack.refl (s : State) : SameOutsideStack s s :=
  ⟨fun _ => rfl, rfl, ⟨rfl, rfl⟩, ⟨fun _ => rfl, rfl⟩, ⟨rfl, rfl⟩, ⟨rfl, rfl⟩, rfl, rfl⟩

theorem SameOutsideStack.push {s t : State} (h : SameOutsideStack s t) (a : Addr) : SameOutsideStack s (t.push a) := h

theorem SameOutsideStack.setLevel {s t : State} (h : SameOutsideStack s t) (k : BitVec 3) (d : Int) :
    SameOutsideStack s (t.setLevel k d) := h

/-- The state after the targets are pushed one after another, unchecked. -/
def State.pushAll (s : State) (targets : List Addr) : State := targets.foldl State.push s

theorem State.pushAll_cons (s : State) (t : Addr) (ts : List Addr) : s.pushAll (t :: ts) = (s.push t).pushAll ts := rfl

theorem State.pushAll_concat (s : State) (ts : List Addr) (t : Addr) : s.pushAll (ts ++ [t]) = (s.pushAll ts).push t := by
  simp [State.pushAll]

/-- `n` levels up and one more is `n + 1` levels up, modulo 8. -/
theorem level_add_one (k : BitVec 3) (n : Nat) : k + BitVec.ofNat 3 n + 1 = k + BitVec.ofNat 3 (n + 1) := by
  rw [BitVec.ofNat_add, BitVec.add_assoc]
  rfl

@[simp] theorem State.pushAll_sp (s : State) (ts : List Addr) : (s.pushAll ts).sp = s.sp + BitVec.ofNat 3 ts.length := by
  induction ts using List.reverseRecOn with
  | nil => simp [State.pushAll]
  | append_singleton ts t ih => simp [State.pushAll_concat, ih, ← level_add_one]

@[simp] theorem State.pushAll_depth (s : State) (ts : List Addr) : (s.pushAll ts).depth = s.depth + ts.length := by
  induction ts using List.reverseRecOn with
  | nil => simp [State.pushAll]
  | append_singleton ts t ih => simp [State.pushAll_concat, ih, add_assoc]

/-- Pushes write the address stack only. -/
theorem State.pushAll_sameOutsideStack (s : State) (ts : List Addr) : SameOutsideStack s (s.pushAll ts) := by
  induction ts using List.reverseRecOn with
  | nil => exact .refl s
  | append_singleton ts t ih =>
    rw [State.pushAll_concat]
    exact ih.push t

theorem State.pushAll_stackPolicy (s : State) (ts : List Addr) : (s.pushAll ts).stackPolicy = s.stackPolicy := by
  obtain ⟨_, _, _, _, _, _, policy, _⟩ := s.pushAll_sameOutsideStack ts
  exact policy

/-- At most seven levels up is never the level of the start, the pointer counting modulo 8 (10_state.md R32). -/
theorem level_ne_add {n : Nat} (k : BitVec 3) (h : n < 7) : k ≠ k + BitVec.ofNat 3 (n + 1) := by
  intro e
  have e' := congrArg BitVec.toNat e
  simp only [BitVec.toNat_add, BitVec.toNat_ofNat] at e'
  omega

/-- At most seven pushes do not reach the entry that was the program counter (10_state.md R32). -/
theorem State.pushAll_entry_sp (s : State) {ts : List Addr} (h : ts.length ≤ 7) : (s.pushAll ts).entry s.sp = s.pc := by
  induction ts using List.reverseRecOn with
  | nil => rfl
  | append_singleton ts t ih =>
    rw [List.length_append, List.length_singleton] at h
    have other : s.sp ≠ (s.pushAll ts).sp + 1 := by
      rw [State.pushAll_sp, level_add_one]
      exact level_ne_add s.sp h
    rw [State.pushAll_concat, State.entry_push, if_neg other, ih (by omega)]

/-- Calls push their targets, where the policy is `wrap` or no push meets depth 7. -/
theorem execAll_calls {s : State} {ts : List Addr} (h : s.stackPolicy = .wrap ∨ s.depth + ts.length ≤ 7) :
    execAll (ts.map .call) s = .next (s.pushAll ts) := by
  induction ts generalizing s with
  | nil => rfl
  | cons t ts ih =>
    rw [List.length_cons] at h
    have allowed : ¬ s.PushRefused := by
      rintro ⟨policy, depth⟩
      rcases h with h | h
      · simp [policy] at h
      · omega
    have room : (s.push t).stackPolicy = .wrap ∨ (s.push t).depth + ts.length ≤ 7 := by
      rcases h with h | h
      · exact .inl h
      · right
        rw [State.push_depth]
        omega
    have first : exec (.call t) s = .next (s.push t) := State.tryPush_of_allowed t allowed
    rw [List.map_cons, execAll_cons_of_next first, ih room, State.pushAll_cons]

/-- Returns move the pointer and the depth down, where the policy is `wrap` or no pop meets depth 0. -/
theorem execAll_returns {s : State} {n : Nat} (h : s.stackPolicy = .wrap ∨ n ≤ s.depth) :
    execAll (List.replicate n .ret) s = .next (s.setLevel (s.sp - BitVec.ofNat 3 n) (s.depth - n)) := by
  induction n generalizing s with
  | zero => simp [execAll, State.setLevel]
  | succ n ih =>
    have allowed : ¬ s.PopRefused := by
      rintro ⟨policy, depth⟩
      rcases h with h | h
      · simp [policy] at h
      · omega
    have room : s.pop.stackPolicy = .wrap ∨ n ≤ s.pop.depth := by
      rcases h with h | h
      · exact .inl h
      · right
        rw [State.pop_depth]
        omega
    have sp : s.sp - 1 - BitVec.ofNat 3 n = s.sp - BitVec.ofNat 3 (n + 1) := by
      rw [BitVec.ofNat_add]
      bv_omega
    have depth : s.depth - 1 - n = s.depth - (n + 1 : Nat) := by omega
    have first : exec .ret s = .next s.pop := State.tryPop_of_allowed allowed
    rw [List.replicate_succ, execAll_cons_of_next first, ih room, State.pop_sp, State.pop_depth, sp, depth]
    rfl

/-- Settles O38: the calls leave the start's entry alone, and as many returns come back to it. -/
theorem sevenNestedCallsReturn : Obligations.SevenNestedCallsReturn := by
  intro s ts few room
  have calls : execAll (ts.map .call) s = .next (s.pushAll ts) := execAll_calls (room.imp id And.right)
  have poppable : (s.pushAll ts).stackPolicy = .wrap ∨ (ts.length : Int) ≤ (s.pushAll ts).depth := by
    rw [State.pushAll_stackPolicy, State.pushAll_depth]
    exact room.imp id fun ⟨nonneg, _⟩ => by omega
  have back : (s.pushAll ts).sp - BitVec.ofNat 3 ts.length = s.sp := by simp
  refine ⟨_, (execAll_append_of_next calls).trans (execAll_returns poppable), ?pc, back, ?depth,
    (s.pushAll_sameOutsideStack ts).setLevel _ _⟩
  case pc =>
    rw [back]
    exact s.pushAll_entry_sp few
  case depth => simp

/-- Settles O39: the eighth push comes round to the entry of the first return address, or meets depth 7. -/
theorem eighthNestedCallOverwritesTheOldest : Obligations.EighthNestedCallOverwritesTheOldest := by
  intro s ts last seven
  constructor
  · intro wrap
    have sp : (s.pushAll (ts ++ [last])).sp = s.sp := by simp [seven]
    have pc : (s.pushAll (ts ++ [last])).pc = last := by rw [State.pushAll_concat, State.pc_push]
    have depth : (s.pushAll (ts ++ [last])).depth = s.depth + 8 := by simp [seven]
    refine ⟨_, execAll_calls (.inl wrap), sp, depth, pc, ?_, s.pushAll_sameOutsideStack _⟩
    rwa [State.pc, sp] at pc
  · intro fault zero
    have calls : execAll (ts.map .call) s = .next (s.pushAll ts) := execAll_calls (.inr (by omega))
    have full : (s.pushAll ts).stackPolicy = .fault ∧ (s.pushAll ts).depth = 7 := by
      rw [State.pushAll_stackPolicy, State.pushAll_depth]
      exact ⟨fault, by omega⟩
    rw [List.map_append, execAll_append_of_next calls, List.map_singleton, execAll, exec_call, State.tryPush, if_pos full]

/-! ## What each group of instructions can do -/

/-- `u` is `s` after no access, a read of M, or a port read. -/
def Accessed (s u : State) : Prop := u = s ∨ u = s.readM.2 ∨ ∃ p, u = (s.portIn p).2

/-- An access changes the input streams and the count of draws only. -/
theorem Accessed.eq {s u : State} (h : Accessed s u) : ∃ streams n, u = { s with inputs := streams, draws := n } := by
  rcases h with rfl | rfl | ⟨p, rfl⟩
  · exact ⟨_, _, rfl⟩
  · obtain ⟨n, e⟩ := s.memRead_snd s.mAddr
    exact ⟨_, n, e⟩
  · rcases s.portIn_cases p with ⟨_, _, _, e⟩ | ⟨_, e⟩ <;> rw [e] <;> exact ⟨_, _, rfl⟩

theorem Accessed.refl (s : State) : Accessed s s := .inl rfl

theorem Accessed.readM (s : State) : Accessed s s.readM.2 := .inr (.inl rfl)

/-- An access writes no register. -/
theorem Accessed.reg {s u : State} (h : Accessed s u) (r : Reg) : u.reg r = s.reg r := by
  obtain ⟨_, _, rfl⟩ := h.eq
  rfl

/-- An access writes no flag. -/
theorem Accessed.flags {s u : State} (h : Accessed s u) : u.flags = s.flags := by
  obtain ⟨_, _, rfl⟩ := h.eq
  rfl

/-- A load writes a register, after at most a read of M, or stores a byte at M (40_index_register.md R110 to R114). -/
theorem exec_load_cases {i : Instr} {s t : State} (g : groupOf i = .load) (h : exec i s = .next t) :
    (∃ u r v, Accessed s u ∧ t = u.setReg r v) ∨ ∃ v, t = s.writeM v := by
  cases i
  case movRR | mviR =>
    cases h
    exact .inl ⟨s, _, _, .refl s, rfl⟩
  case movRM =>
    cases h
    exact .inl ⟨s.readM.2, _, _, .readM s, rfl⟩
  case movMR | mviM =>
    cases h
    exact .inr ⟨_, rfl⟩
  all_goals cases g

/-- An increment or a decrement steps a register (40_index_register.md R115, R116). -/
theorem exec_step_cases {i : Instr} {s t : State} (g : groupOf i = .step) (h : exec i s = .next t) :
    ∃ r v, t = s.stepReg r v := by
  cases i
  case inrR | dcrR =>
    cases h
    exact ⟨_, _, rfl⟩
  all_goals cases g

/-- An arithmetic or logical operation puts its result in A, or compares, after at most a read of M
(41_accumulator_group.md R134 to R157). -/
theorem exec_alu_cases {i : Instr} {s t : State} (g : groupOf i = .alu) (h : exec i s = .next t) :
    ∃ u, Accessed s u ∧ ((∃ v carry, t = u.aluResult v carry) ∨ ∃ v, t = u.aluCompare v) := by
  cases i
  case cmpR | cpi =>
    cases h
    exact ⟨s, .refl s, .inr ⟨_, rfl⟩⟩
  case cmpM =>
    cases h
    exact ⟨s.readM.2, .readM s, .inr ⟨_, rfl⟩⟩
  case addR | adi | adcR | aci | subR | sui | sbbR | sbi | anaR | ani | xraR | xri | oraR | ori =>
    cases h
    exact ⟨s, .refl s, .inl ⟨_, _, rfl⟩⟩
  case addM | adcM | subM | sbbM | anaM | xraM | oraM =>
    cases h
    exact ⟨s.readM.2, .readM s, .inl ⟨_, _, rfl⟩⟩
  all_goals cases g

/-- A rotate writes A and the carry (41_accumulator_group.md R158 to R161). -/
theorem exec_rotate_cases {i : Instr} {s t : State} (g : groupOf i = .rotate) (h : exec i s = .next t) :
    ∃ rotated, t = s.aluRotate rotated := by
  cases i
  case rlc | rrc | ral | rar =>
    cases h
    exact ⟨_, rfl⟩
  all_goals cases g

/-- A control instruction jumps, calls or returns under some condition, `true` for the unconditional forms
(42_pc_stack_control.md R182 to R209). -/
theorem exec_control_eq {i : Instr} (g : groupOf i = .control) (s : State) :
    (∃ taken a, exec i s = .next (s.jumpIf taken a)) ∨ (∃ taken a, exec i s = s.callIf taken a)
      ∨ ∃ taken, exec i s = s.returnIf taken := by
  cases i
  case jmp a => exact .inl ⟨true, a, rfl⟩
  case jnc | jnz | jp | jpo | jc | jz | jm | jpe => exact .inl ⟨_, _, rfl⟩
  case call a => exact .inr (.inl ⟨true, a, rfl⟩)
  case rst n => exact .inr (.inl ⟨true, restartAddr n, rfl⟩)
  case cnc | cnz | cp | cpo | cc | cz | cm | cpe => exact .inr (.inl ⟨_, _, rfl⟩)
  case ret => exact .inr (.inr ⟨true, rfl⟩)
  case rnc | rnz | rp | rpo | rc | rz | rm | rpe => exact .inr (.inr ⟨_, rfl⟩)
  all_goals cases g

theorem State.callIf_next {s t : State} {taken : Bool} {a : Addr} (h : s.callIf taken a = .next t) : t = s ∨ t = s.push a := by
  rcases s.callIf_cases taken a with ⟨_, e⟩ | ⟨_, e⟩ <;> rw [e] at h
  · rcases s.tryPush_cases a with ⟨_, f⟩ | ⟨_, f⟩ <;> rw [f] at h <;> cases h
    exact .inr rfl
  · cases h
    exact .inl rfl

theorem State.returnIf_next {s t : State} {taken : Bool} (h : s.returnIf taken = .next t) : t = s ∨ t = s.pop := by
  rcases s.returnIf_cases taken with ⟨_, e⟩ | ⟨_, e⟩ <;> rw [e] at h
  · rcases s.tryPop_cases with ⟨_, f⟩ | ⟨_, f⟩ <;> rw [f] at h <;> cases h
    exact .inr rfl
  · cases h
    exact .inl rfl

/-- A control instruction does nothing, jumps, calls or returns. -/
theorem exec_control_cases {i : Instr} {s t : State} (g : groupOf i = .control) (h : exec i s = .next t) :
    t = s ∨ (∃ a, t = s.setPc a) ∨ (∃ a, t = s.push a) ∨ t = s.pop := by
  rcases exec_control_eq g s with ⟨taken, a, e⟩ | ⟨taken, a, e⟩ | ⟨taken, e⟩ <;> rw [e] at h
  · cases h
    rcases s.jumpIf_cases taken a with ⟨_, made⟩ | ⟨_, made⟩
    · exact .inr (.inl ⟨a, made⟩)
    · exact .inl made
  · exact (State.callIf_next h).imp id fun made => .inr (.inl ⟨a, made⟩)
  · exact (State.returnIf_next h).imp id fun made => .inr (.inr made)

/-- An input loads A after a port read (43_input_output.md R230). -/
theorem exec_input_cases {i : Instr} {s t : State} (g : groupOf i = .input) (h : exec i s = .next t) :
    ∃ u v, Accessed s u ∧ t = u.setReg .a v := by
  cases i
  case inP p =>
    cases h
    exact ⟨_, _, .inr (.inr ⟨p, rfl⟩), rfl⟩
  all_goals cases g

/-- An output appends an event (43_input_output.md R231). -/
theorem exec_output_cases {i : Instr} {s t : State} (g : groupOf i = .output) (h : exec i s = .next t) :
    ∃ p v, t = s.portOut p v := by
  cases i
  case outP =>
    cases h
    exact ⟨_, _, rfl⟩
  all_goals cases g

/-- A halt stops the machine (44_machine.md R240, R241). -/
theorem exec_halt_eq {i : Instr} {s t : State} (g : groupOf i = .halt) (h : exec i s = .next t) : t = s.setRun .stopped := by
  cases i
  case hlt | hltFF =>
    cases h
    rfl
  all_goals cases g

/-! ## The flag and register table -/

@[simp] theorem State.writeM_flags (s : State) (v : Byte) : (s.writeM v).flags = s.flags := by
  rw [State.writeM, State.memWrite_eq]

theorem exec_load_flags {i : Instr} {s t : State} (g : groupOf i = .load) (h : exec i s = .next t) : SameFlags s t := by
  rcases exec_load_cases g h with ⟨_, _, _, access, rfl⟩ | ⟨v, rfl⟩
  · exact access.flags
  · exact s.writeM_flags v

theorem exec_step_carry {i : Instr} {s t : State} (g : groupOf i = .step) (h : exec i s = .next t) : t.flags.cy = s.flags.cy := by
  obtain ⟨_, _, rfl⟩ := exec_step_cases g h
  rfl

/-- The accumulator group writes no register but A, and a compare none (10_state.md R22). -/
theorem exec_alu_regs {i : Instr} {s t : State} (g : groupOf i = .alu) (h : exec i s = .next t) : SameRegsBut .a s t := by
  intro r other
  obtain ⟨u, access, ⟨v, carry, rfl⟩ | ⟨v, rfl⟩⟩ := exec_alu_cases g h
  · rw [State.aluResult_reg, if_neg other, access.reg]
  · exact access.reg r

/-- A rotate keeps zero, sign and parity, and every register but A (10_state.md R22, R26). -/
theorem exec_rotate_frame {i : Instr} {s t : State} (g : groupOf i = .rotate) (h : exec i s = .next t) :
    (t.flags.z = s.flags.z ∧ t.flags.s = s.flags.s ∧ t.flags.p = s.flags.p) ∧ SameRegsBut .a s t := by
  obtain ⟨_, rfl⟩ := exec_rotate_cases g h
  exact ⟨⟨rfl, rfl, rfl⟩, fun r other => by rw [State.aluRotate_reg, if_neg other]⟩

theorem exec_control_frame {i : Instr} {s t : State} (g : groupOf i = .control) (h : exec i s = .next t) :
    SameRegs s t ∧ SameFlags s t := by
  rcases exec_control_cases g h with rfl | ⟨_, rfl⟩ | ⟨_, rfl⟩ | rfl <;> exact ⟨fun _ => rfl, rfl⟩

theorem exec_input_frame {i : Instr} {s t : State} (g : groupOf i = .input) (h : exec i s = .next t) :
    SameRegsBut .a s t ∧ SameFlags s t := by
  obtain ⟨u, v, access, rfl⟩ := exec_input_cases g h
  exact ⟨fun r other => (u.reg_setReg_of_ne v other).trans (access.reg r), access.flags⟩

theorem exec_output_frame {i : Instr} {s t : State} (g : groupOf i = .output) (h : exec i s = .next t) :
    SameRegs s t ∧ SameFlags s t := by
  obtain ⟨_, _, rfl⟩ := exec_output_cases g h
  exact ⟨fun _ => rfl, rfl⟩

theorem exec_halt_frame {i : Instr} {s t : State} (g : groupOf i = .halt) (h : exec i s = .next t) :
    SameRegs s t ∧ SameFlags s t := by
  obtain rfl := exec_halt_eq g h
  exact ⟨fun _ => rfl, rfl⟩

/-- Settles O55: each group keeps what the lemmas of that group say. -/
theorem flagAndRegisterTable : Obligations.FlagAndRegisterTable := by
  intro i s t h
  simp only [List.mem_cons, List.not_mem_nil, or_false]
  refine ⟨?flags, fun g => exec_step_carry g h, fun g => (exec_rotate_frame g h).1, ?regs, ?regsButA⟩
  case flags =>
    rintro (g | g | g | g | g)
    · exact exec_load_flags g h
    · exact (exec_control_frame g h).2
    · exact (exec_input_frame g h).2
    · exact (exec_output_frame g h).2
    · exact (exec_halt_frame g h).2
  case regs =>
    rintro (g | g | g)
    · exact (exec_control_frame g h).1
    · exact (exec_output_frame g h).1
    · exact (exec_halt_frame g h).1
  case regsButA =>
    rintro (g | g | g)
    · exact exec_alu_regs g h
    · exact (exec_rotate_frame g h).2
    · exact (exec_input_frame g h).1

/-! ## What a step does to the address stack -/

/-- The pointer and the depth move together by at most one, only the program counter's entry and the next one up can differ, and the
policy is kept (10_state.md R28, R31). -/
def StackMove (s t : State) : Prop :=
  (t.sp = s.sp ∧ t.depth = s.depth ∨ t.sp = s.sp + 1 ∧ t.depth = s.depth + 1 ∨ t.sp = s.sp - 1 ∧ t.depth = s.depth - 1) ∧
    (∀ k : BitVec 3, k ≠ s.sp → k ≠ s.sp + 1 → t.entry k = s.entry k) ∧ SamePolicy s t

theorem StackMove.refl (s : State) : StackMove s s := ⟨.inl ⟨rfl, rfl⟩, fun _ _ _ => rfl, rfl⟩

theorem StackMove.setPc (s : State) (a : Addr) : StackMove s (s.setPc a) :=
  ⟨.inl ⟨rfl, rfl⟩, fun k here _ => by rw [State.entry_setPc, if_neg here], rfl⟩

theorem StackMove.push (s : State) (a : Addr) : StackMove s (s.push a) :=
  ⟨.inr (.inl ⟨rfl, rfl⟩), fun k _ up => by rw [State.entry_push, if_neg up], rfl⟩

theorem StackMove.pop (s : State) : StackMove s s.pop := ⟨.inr (.inr ⟨rfl, rfl⟩), fun _ _ _ => rfl, rfl⟩

/-- One instruction moves the stack by at most one level. -/
theorem Effect.stackMove {i : Instr} {s t : State} (h : Effect i s t) : StackMove s t := by
  cases h with
  | compute u x f access =>
    obtain ⟨_, _, rfl⟩ := Accessed.eq access
    exact .refl s
  | store v _ =>
    rw [State.writeM, State.memWrite_eq]
    exact .refl s
  | jump a => exact .setPc s a
  | call a _ => exact .push s a
  | ret _ => exact .pop s
  | nothing => exact .refl s
  | output _ _ => exact .refl s
  | halt => exact .refl s

/-- Fetching an instruction changes `pc` and at most the count of draws. -/
theorem State.fetchInstr_snd (s : State) : ∃ n pc, s.fetchInstr.2 = (s.setDraws n).setPc pc := by
  obtain ⟨m, first⟩ := s.fetch_snd
  obtain ⟨_, _, n, pc, rest⟩ := s.fetch.2.fetchRest_spec s.fetch.1
  refine ⟨n, pc, ?_⟩
  rw [State.fetchInstr, rest, first]
  simp [State.setPc, State.setEntry, State.setDraws]

/-- A step's instruction runs in the state at the boundary but for `pc` and the draws, and but for the interrupt's own two fields where
one is taken. -/
theorem nextInstr_state {s u : State} {i : Instr} (h : s.nextInstr = some (i, u)) :
    ∃ w n pc, (w = s ∨ w = s.enterInterrupt) ∧ u = (w.setDraws n).setPc pc := by
  rcases nextInstr_cases h with ⟨_, supplied⟩ | ⟨_, _, fetched⟩
  · obtain ⟨_, _, n, pc, rest⟩ := s.enterInterrupt.fetchRest_spec s.intByte
    exact ⟨_, n, pc, .inr rfl, congrArg Prod.snd (supplied.trans rest)⟩
  · obtain ⟨n, pc, e⟩ := s.fetchInstr_snd
    exact ⟨_, n, pc, .inl rfl, (congrArg Prod.snd fetched).trans e⟩

/-- Before its instruction acts, a step has written no stack entry but the program counter's. -/
theorem nextInstr_sameStackButPc {s u : State} {i : Instr} (h : s.nextInstr = some (i, u)) :
    SameStackButPc s u ∧ SamePolicy s u := by
  obtain ⟨w, n, pc, rfl | rfl, rfl⟩ := nextInstr_state h <;>
    exact ⟨⟨rfl, rfl, fun k other => (State.entry_setPc _ k pc).trans (if_neg other)⟩, rfl⟩

/-- The program counter moved on first adds no entry to those a move can touch. -/
theorem StackMove.of_sameStackButPc {s u t : State} (before : SameStackButPc s u) (policy : SamePolicy s u) (h : StackMove u t) :
    StackMove s t := by
  obtain ⟨sp, depth, entries⟩ := before
  obtain ⟨moved, kept, policy'⟩ := h
  rw [sp, depth] at moved
  rw [sp] at kept
  exact ⟨moved, fun k here up => (kept k here up).trans (entries k here), policy'.trans policy⟩

theorem StackMove.pollInt {s t : State} (h : StackMove s t) : StackMove s t.pollInt := by
  simpa [StackMove, SamePolicy] using h

/-- Settles O56: the fetch writes the program counter's entry, the instruction moves at most one level, the environment neither. -/
theorem stepTouchesTwoStackEntries : Obligations.StepTouchesTwoStackEntries := by
  intro s t h
  show StackMove s t
  rcases step_next_cases h with ⟨_, rfl⟩ | ⟨i, u, v, next, run, rfl⟩
  · exact (StackMove.refl s).pollInt
  · obtain ⟨before, policy⟩ := nextInstr_sameStackButPc next
    exact (StackMove.of_sameStackButPc before policy (exec_effect run).stackMove).pollInt

end Sys2Proof.Machine
end

section
/-! SUPPORT and the statements of 20_memory.md: the operands a decoded instruction can have; what an effect and a step do to memory and
to the invariant; fetches from an absent address and from one just stored to. -/

namespace Sys2Proof

/-! ## What the decoder answers is well formed (30_encoding.md R96, 43_input_output.md R231) -/

theorem decodeIncrement_wellFormed (y : BitVec 3) : (decodeIncrement y).wellFormed = true := by
  revert y; decide

theorem decodeDecrement_wellFormed (y : BitVec 3) : (decodeDecrement y).wellFormed = true := by
  revert y; decide

theorem decodeRotate_wellFormed (y : BitVec 3) : (decodeRotate y).wellFormed = true := by
  revert y; decide

theorem returnConditional_wellFormed (tcc : BitVec 3) : (returnConditional tcc).wellFormed = true := by
  revert tcc; decide

theorem aluImmediate_wellFormed (ppp : BitVec 3) (data : Byte) : (aluImmediate ppp data).wellFormed = true := by
  unfold aluImmediate
  split <;> rfl

theorem decodeMoveImmediate_wellFormed (y : BitVec 3) (data : Byte) : (decodeMoveImmediate y data).wellFormed = true := by
  unfold decodeMoveImmediate
  split <;> rfl

theorem decodeGroup00_wellFormed (y w : BitVec 3) (b2 : Byte) : (decodeGroup00 y w b2).wellFormed = true := by
  unfold decodeGroup00
  split
  · exact decodeIncrement_wellFormed y
  · exact decodeDecrement_wellFormed y
  · exact decodeRotate_wellFormed y
  · exact returnConditional_wellFormed y
  · exact aluImmediate_wellFormed y b2
  · rfl
  · exact decodeMoveImmediate_wellFormed y b2
  · rfl

theorem jumpConditional_wellFormed (tcc : BitVec 3) (t : Addr) : (jumpConditional tcc t).wellFormed = true := by
  unfold jumpConditional
  split <;> rfl

theorem callConditional_wellFormed (tcc : BitVec 3) (t : Addr) : (callConditional tcc t).wellFormed = true := by
  unfold callConditional
  split <;> rfl

/-- A port field whose two high bits RR are not 00 names a port from 8 on (43_input_output.md R231). -/
theorem outPort_ge_eight {op : Byte} (h : op.extractLsb' 4 2 ≠ 0b00#2) : 8 ≤ (op.extractLsb' 1 5).toNat := by
  revert op; decide

theorem decodeGroup01_wellFormed (op : Byte) (y w : BitVec 3) (t : Addr) : (decodeGroup01 op y w t).wellFormed = true := by
  unfold decodeGroup01
  split
  · exact jumpConditional_wellFormed y t
  · exact callConditional_wellFormed y t
  · rfl
  · rfl
  · split
    · rfl
    · rename_i output
      exact decide_eq_true (outPort_ge_eight output)

theorem decodeGroup10_wellFormed (y w : BitVec 3) : (decodeGroup10 y w).wellFormed = true := by
  revert y w; decide

theorem decodeGroup11_wellFormed (y w : BitVec 3) : (decodeGroup11 y w).wellFormed = true := by
  revert y w; decide

/-- Whatever the bytes, the instruction they name has only operands the table allows. -/
theorem decodeWith_wellFormed (op b2 b3 : Byte) : (decodeWith op b2 b3).wellFormed = true := by
  unfold decodeWith
  split
  · exact decodeGroup00_wellFormed _ _ _
  · exact decodeGroup01_wellFormed _ _ _ _
  · exact decodeGroup10_wellFormed _ _
  · exact decodeGroup11_wellFormed _ _

theorem Instr.wellFormed_outP {p : BitVec 5} (h : (Instr.outP p).wellFormed = true) : 8 ≤ p.toNat := of_decide_eq_true h

/-- A decoded instruction has at most two bytes after its first (30_encoding.md R80, R89). -/
theorem decode_cons_length_le {op : Byte} {more : List Byte} {i : Instr} (h : decode (op :: more) = .ok (i, [])) :
    more.length ≤ 2 := by
  rcases decode_cons_cases h with ⟨_, rfl, _⟩ | ⟨_, _, rfl, _⟩ | ⟨_, _, _, rfl, _⟩ <;> simp

end Sys2Proof

namespace Sys2Proof.Machine

/-! ## What an instruction does to memory -/

theorem SameMemory.refl (s : State) : SameMemory s s := ⟨fun _ => rfl, rfl⟩

theorem SameMemory.trans {s t u : State} (h : SameMemory s t) (k : SameMemory t u) : SameMemory s u := by
  obtain ⟨bytes, map⟩ := h
  obtain ⟨bytes', map'⟩ := k
  exact ⟨fun a => (bytes' a).trans (bytes a), map'.trans map⟩

theorem SameMemory.pollInt (s : State) : SameMemory s s.pollInt := ⟨s.pollInt_byteAt, s.pollInt_memMap⟩

/-- An instruction keeps all of memory, or it is one of the two stores (20_memory.md R51). -/
theorem Effect.memory_cases {i : Instr} {s t : State} (h : Effect i s t) :
    SameMemory s t ∨ ∃ v, (i = .mviM v ∨ ∃ src, i = .movMR src ∧ v = s.reg src) ∧ t = s.writeM v := by
  cases h with
  | compute u x f access =>
    obtain ⟨_, _, rfl⟩ := Accessed.eq access
    exact .inl (.refl s)
  | store v storing => exact .inr ⟨v, storing, rfl⟩
  | jump _ => exact .inl (.refl s)
  | call _ _ => exact .inl (.refl s)
  | ret _ => exact .inl (.refl s)
  | nothing => exact .inl (.refl s)
  | output _ _ => exact .inl (.refl s)
  | halt => exact .inl (.refl s)

/-- Settles O54: of the effects only the store does not keep memory. -/
theorem onlyTheStoresWriteMemory : Obligations.OnlyTheStoresWriteMemory := by
  intro i s t h notMov notMvi
  rcases (exec_effect h).memory_cases with same | ⟨v, rfl | ⟨src, rfl, _⟩, _⟩
  · exact same
  · exact absurd rfl (notMvi v)
  · exact absurd rfl (notMov src)

/-! ## What a step does to memory that is not RAM -/

/-- The map is kept, and what stands at every address that is not RAM. -/
def RomKept (s t : State) : Prop := t.memMap = s.memMap ∧ ∀ a : Addr, s.kindAt a ≠ .ram → t.byteAt a = s.byteAt a

theorem SameMemory.romKept {s t : State} (h : SameMemory s t) : RomKept s t := by
  obtain ⟨bytes, map⟩ := h
  exact ⟨map, fun a _ => bytes a⟩

theorem kindAt_of_memMap {s t : State} (h : t.memMap = s.memMap) (a : Addr) : t.kindAt a = s.kindAt a := by
  simp [State.kindAt, h]

theorem RomKept.trans {s t u : State} (h : RomKept s t) (k : RomKept t u) : RomKept s u := by
  obtain ⟨map, bytes⟩ := h
  obtain ⟨map', bytes'⟩ := k
  refine ⟨map'.trans map, fun a notRam => ?_⟩
  exact (bytes' a (by rwa [kindAt_of_memMap map])).trans (bytes a notRam)

/-- A write meets RAM or changes nothing (20_memory.md R55, R67). -/
theorem RomKept.memWrite (s : State) (a : Addr) (v : Byte) : RomKept s (s.memWrite a v) := by
  refine ⟨s.memWrite_memMap a v, fun b notRam => ?_⟩
  have elsewhere : ¬ (s.kindAt a = .ram ∧ b = a) := fun ⟨ram, here⟩ => notRam (here ▸ ram)
  rw [State.memWrite_byteAt, if_neg elsewhere]

theorem Effect.romKept {i : Instr} {s t : State} (h : Effect i s t) : RomKept s t := by
  rcases h.memory_cases with same | ⟨v, _, rfl⟩
  · exact same.romKept
  · exact .memWrite s s.mAddr v

/-- Fetching an instruction, or taking the interrupt's, writes no memory. -/
theorem nextInstr_sameMemory {s u : State} {i : Instr} (h : s.nextInstr = some (i, u)) : SameMemory s u := by
  obtain ⟨w, _, _, rfl | rfl, rfl⟩ := nextInstr_state h <;> exact .refl _

/-- Settles O53: the fetch and the environment write no memory, and the instruction at most a byte of RAM. -/
theorem noStepChangesRom : Obligations.NoStepChangesRom := by
  intro s t h
  show RomKept s t
  rcases step_next_cases h with ⟨_, rfl⟩ | ⟨i, u, v, next, run, rfl⟩
  · exact (SameMemory.pollInt s).romKept
  · exact ((nextInstr_sameMemory next).romKept.trans (exec_effect run).romKept).trans (SameMemory.pollInt v).romKept

/-! ## The invariant -/

/-- The instruction a step runs was decoded, so its operands are allowed. -/
theorem nextInstr_wellFormed {s u : State} {i : Instr} (h : s.nextInstr = some (i, u)) : i.wellFormed = true := by
  obtain ⟨w, op, e⟩ : ∃ (w : State) (op : Byte), (i, u) = w.fetchRest op := by
    rcases nextInstr_cases h with ⟨_, supplied⟩ | ⟨_, _, fetched⟩
    · exact ⟨_, _, supplied⟩
    · exact ⟨_, _, fetched⟩
  obtain ⟨b2, b3, _, _, rest⟩ := w.fetchRest_spec op
  obtain rfl : i = decodeWith op b2 b3 := congrArg Prod.fst (e.trans rest)
  exact decodeWith_wellFormed op b2 b3

/-- The invariant speaks of the memory list, the output history, the stack policy and the depth only. -/
theorem State.Inv.congr {s t : State} (h : s.Inv) (mem : t.mem = s.mem) (outputs : t.outputs = s.outputs)
    (policy : t.stackPolicy = s.stackPolicy) (depth : t.depth = s.depth) : t.Inv := by
  simpa [State.Inv, mem, outputs, policy, depth] using h

theorem State.Inv.writeM {s : State} (h : s.Inv) (v : Byte) : (s.writeM v).Inv := by
  obtain ⟨mem, outputs, depth⟩ := h
  have stored : (s.writeM v).mem.wf := s.memWrite_wf s.mAddr v mem
  rw [State.writeM, State.memWrite_eq] at stored ⊢
  exact ⟨stored, outputs, depth⟩

/-- Where the policy is `fault`, a push that is let starts below depth 7 (10_state.md R32). -/
theorem State.Inv.push {s : State} (h : s.Inv) (a : Addr) (allowed : ¬ s.PushRefused) : (s.push a).Inv := by
  obtain ⟨mem, outputs, depth⟩ := h
  refine ⟨mem, outputs, fun fault => ?_⟩
  have notSeven : s.depth ≠ 7 := fun seven => allowed ⟨fault, seven⟩
  have bounds := depth fault
  rw [State.push_depth]
  omega

/-- Where the policy is `fault`, a pop that is let starts above depth 0 (10_state.md R32). -/
theorem State.Inv.pop {s : State} (h : s.Inv) (allowed : ¬ s.PopRefused) : s.pop.Inv := by
  obtain ⟨mem, outputs, depth⟩ := h
  refine ⟨mem, outputs, fun fault => ?_⟩
  have notZero : s.depth ≠ 0 := fun zero => allowed ⟨fault, zero⟩
  have bounds := depth fault
  rw [State.pop_depth]
  omega

theorem State.Inv.portOut {s : State} (h : s.Inv) {p : BitVec 5} (v : Byte) (port : 8 ≤ p.toNat) : (s.portOut p v).Inv := by
  obtain ⟨mem, outputs, depth⟩ := h
  refine ⟨mem, fun e he => ?_, depth⟩
  rcases List.mem_append.mp he with old | new
  · exact outputs e old
  · obtain rfl := List.mem_singleton.mp new
    exact port

theorem State.Inv.pollInt {s : State} (h : s.Inv) : s.pollInt.Inv :=
  h.congr s.pollInt_mem s.pollInt_outputs s.pollInt_stackPolicy s.pollInt_depth

/-- An instruction with allowed operands keeps the invariant. -/
theorem Effect.inv {i : Instr} {s t : State} (h : Effect i s t) (wf : i.wellFormed = true) (inv : s.Inv) : t.Inv := by
  cases h with
  | compute u x f access =>
    obtain ⟨_, _, rfl⟩ := Accessed.eq access
    exact inv.congr rfl rfl rfl rfl
  | store v _ => exact inv.writeM v
  | jump _ => exact inv.congr rfl rfl rfl rfl
  | call a allowed => exact inv.push a allowed
  | ret allowed => exact inv.pop allowed
  | nothing => exact inv
  | output p out =>
    subst out
    exact inv.portOut _ (Instr.wellFormed_outP wf)
  | halt => exact inv.congr rfl rfl rfl rfl

/-- Fetching an instruction, or taking the interrupt's, keeps the invariant. -/
theorem nextInstr_inv {s u : State} {i : Instr} (h : s.nextInstr = some (i, u)) (inv : s.Inv) : u.Inv := by
  obtain ⟨w, _, _, rfl | rfl, rfl⟩ := nextInstr_state h <;> exact inv.congr rfl rfl rfl rfl

/-- Settles O51: the instruction is a decoded one, and each of its effects keeps the invariant. -/
theorem everyStepKeepsTheInvariant : Obligations.EveryStepKeepsTheInvariant := by
  intro s t inv h
  rcases step_next_cases h with ⟨_, rfl⟩ | ⟨i, u, v, next, run, rfl⟩
  · exact inv.pollInt
  · exact ((exec_effect run).inv (nextInstr_wellFormed next) (nextInstr_inv next inv)).pollInt

/-- After power-on the history is empty and the depth 0, so the invariant rests on the initial contents alone. -/
theorem State.powerOn_inv {p : Platform} (h : p.mem.wf) : (State.powerOn p).Inv :=
  ⟨State.powerOn_mem_wf h, by simp [State.powerOn], by simp [State.powerOn]⟩

/-- Settles O52: the standard platform's empty memory is in canonical form. -/
theorem powerOnHasTheInvariant : Obligations.PowerOnHasTheInvariant :=
  ⟨State.powerOn_inv State.reset_mem_wf, fun _ => State.powerOn_inv⟩

/-! ## A fetch from an absent address -/

/-- A fetch from an absent address takes the next free value and advances `pc` (20_memory.md R67, 10_state.md R30). -/
theorem State.fetch_of_absent (s : State) (h : s.kindAt s.pc = .absent) :
    s.fetch = (Config.freeByte s.draws, (s.setDraws (s.draws + 1)).setPc (s.pc + 1)) := by
  simp [State.fetch, State.memRead_of_absent s h, State.draw]

/-- RUNNING with nothing pending, the step runs the instruction fetched (00_scope.md R12). -/
theorem step_of_running {s : State} (hrun : s.run = .running) (hint : s.intreq = false) :
    step s = endStep (exec s.fetchInstr.1 s.fetchInstr.2) := by
  simp [step, State.nextInstr, hrun, hint]

/-- RUNNING with nothing pending, the first byte is the one at `pc`. -/
theorem State.firstByte_of_running {s : State} (hrun : s.run = .running) (hint : s.intreq = false) :
    s.firstByte = some (s.memRead s.pc).1 := by
  simp [State.firstByte, hrun, hint]

/-- Settles O45: the first byte is drawn, and the rest of the fetch goes on from the state after the draw. -/
theorem absentFetchDrawsItsByte : Obligations.AbsentFetchDrawsItsByte := by
  intro s hrun hint absent
  refine ⟨?_, ?_⟩
  · rw [State.firstByte_of_running hrun hint, State.memRead_of_absent s absent, State.draw]
  · rw [step_of_running hrun hint, State.fetchInstr, State.fetch_of_absent s absent]

/-! ## A fetch from an address just stored to -/

/-- Bytes stand from an address on when the first stands there and the others from the next one on. -/
theorem State.BytesAt.cons {s : State} {a : Addr} {b : Byte} {rest : List Byte} (present : s.kindAt a ≠ .absent)
    (holds : s.byteAt a = b) (others : s.BytesAt (a + 1) rest) : s.BytesAt a (b :: rest) := by
  intro k hk
  cases k with
  | zero => simpa using And.intro present holds
  | succ k =>
    rw [← addr_add_one_add]
    exact others k (Nat.lt_of_succ_lt_succ hk)

/-- A store leaves the bytes that stand at other addresses than M. -/
theorem State.BytesAt.writeM {s : State} {a : Addr} {bytes : List Byte} (h : s.BytesAt a bytes) (v : Byte)
    (away : ∀ k < bytes.length, a + BitVec.ofNat 14 k ≠ s.mAddr) : (s.writeM v).BytesAt a bytes := by
  intro k hk
  rw [State.writeM, State.memWrite_kindAt, State.memWrite_byteAt, if_neg (fun here => away k hk here.2)]
  exact h k hk

/-- The addresses after `a`, up to the last before the address space wraps around to it. -/
theorem addr_add_one_add_ne (a : Addr) {k : Nat} (h : k + 1 < 2 ^ 14) : a + 1 + BitVec.ofNat 14 k ≠ a := by
  rw [addr_add_one_add]
  intro back
  have whole : BitVec.ofNat 14 (k + 1) = 0 := by simpa using back
  have value := congrArg BitVec.toNat whole
  rw [BitVec.toNat_ofNat, Nat.mod_eq_of_lt h] at value
  exact Nat.succ_ne_zero k value

/-- Both stores write M. -/
theorem exec_store {i : Instr} {s : State} {v : Byte} (h : i = .mviM v ∨ ∃ src, i = .movMR src ∧ v = s.reg src) :
    exec i s = .next (s.writeM v) := by
  rcases h with rfl | ⟨src, rfl, rfl⟩ <;> rfl

/-- A store keeps `pc`, the run state and the pending interrupt. -/
theorem State.writeM_control (s : State) (v : Byte) :
    (s.writeM v).pc = s.pc ∧ (s.writeM v).run = s.run ∧ (s.writeM v).intreq = s.intreq := by
  rw [State.writeM, State.memWrite_eq]
  exact ⟨rfl, rfl, rfl⟩

theorem State.writeM_byteAt_mAddr {s : State} (v : Byte) (h : s.kindAt s.mAddr = .ram) : (s.writeM v).byteAt s.mAddr = v := by
  rw [State.writeM, State.memWrite_byteAt, if_pos ⟨h, rfl⟩]

theorem State.writeM_present {s : State} (v : Byte) (h : s.kindAt s.mAddr = .ram) : (s.writeM v).kindAt s.mAddr ≠ .absent := by
  simp [State.writeM, h]

/-- After a store to RAM at `pc`, the byte stored and the bytes after it stand at `pc`, as long as an instruction holds them. -/
theorem State.bytesAt_writeM {s : State} {v : Byte} {more : List Byte} (ram : s.kindAt s.mAddr = .ram) (here : s.pc = s.mAddr)
    (short : more.length ≤ 2) (others : s.BytesAt (s.pc + 1) more) : (s.writeM v).BytesAt s.pc (v :: more) := by
  have away : ∀ k < more.length, s.pc + 1 + BitVec.ofNat 14 k ≠ s.mAddr := fun k hk =>
    here ▸ addr_add_one_add_ne s.pc (by omega)
  rw [here] at others away ⊢
  exact .cons (State.writeM_present v ram) (State.writeM_byteAt_mAddr v ram) (others.writeM v away)

/-- Settles O58: what the store leaves at `pc` is what the next step decodes. -/
theorem storeIsSeenByTheNextFetch : Obligations.StoreIsSeenByTheNextFetch := by
  intro s i v storing ram here running quiet
  obtain ⟨pc, run, intreq⟩ := s.writeM_control v
  refine ⟨s.writeM v, exec_store storing, ?firstByte, fun j more decoded others => ?step⟩
  case firstByte =>
    rw [State.firstByte_of_running (run.trans running) (intreq.trans quiet), pc, here,
      State.memRead_of_present _ (State.writeM_present v ram), State.writeM_byteAt_mAddr v ram]
  case step =>
    have bytes : (s.writeM v).BytesAt (s.writeM v).pc (v :: more) := by
      rw [pc]
      exact State.bytesAt_writeM ram here (decode_cons_length_le decoded) others
    have runs := step_of_atInstr decoded ⟨run.trans running, intreq.trans quiet, bytes⟩
    rwa [List.length_cons] at runs

end Sys2Proof.Machine
end
section
/-! SUPPORT and the statements of 30_encoding.md: the length of each pattern; what each pattern of the tables decodes to, whatever follows
it; decoding after encoding; the don't-care bits; the undefined bytes, and the stops of a step. -/

namespace Sys2Proof

/-! ## Lengths -/

/-- Settles O3: the rule of R89 evaluated at each first byte. -/
theorem lengthFromTheFirstByte : Obligations.LengthFromTheFirstByte := by
  intro op
  refine ⟨?two, ?three, instrLength_cases op⟩
  case two => revert op; decide
  case three => revert op; decide

/-- The length by the fields of the first byte (30_encoding.md R81, R89). -/
theorem instrLength_opByte (g : BitVec 2) (y w : BitVec 3) :
    instrLength (opByte g y w) =
      if g = 0b00#2 ∧ (w = 0b100#3 ∨ w = 0b110#3) then 2 else if g = 0b01#2 ∧ w.getLsbD 0 = false then 3 else 1 := by
  revert g y w; decide

/-! ## Decoding a first byte of each length -/

theorem decode_of_length_one {op : Byte} (h : instrLength op = 1) (rest : List Byte) :
    decode (op :: rest) = .ok (decodeWith op 0 0, rest) := by
  simp [decode, h]

theorem decode_of_length_two {op : Byte} (h : instrLength op = 2) (b2 : Byte) (rest : List Byte) :
    decode (op :: b2 :: rest) = .ok (decodeWith op b2 0, rest) := by
  simp [decode, h]

theorem decode_of_length_three {op : Byte} (h : instrLength op = 3) (b2 b3 : Byte) (rest : List Byte) :
    decode (op :: b2 :: b3 :: rest) = .ok (decodeWith op b2 b3, rest) := by
  simp [decode, h]

/-! ## The four groups -/

theorem decodeWith_group00 (y w : BitVec 3) (b2 b3 : Byte) : decodeWith (opByte 0b00#2 y w) b2 b3 = decodeGroup00 y w b2 := by
  simp [decodeWith]

theorem decodeWith_group01 (y w : BitVec 3) (b2 b3 : Byte) :
    decodeWith (opByte 0b01#2 y w) b2 b3 = decodeGroup01 (opByte 0b01#2 y w) y w (addrOf b2 b3) := by
  simp [decodeWith]

theorem decodeWith_group10 (y w : BitVec 3) (b2 b3 : Byte) : decodeWith (opByte 0b10#2 y w) b2 b3 = decodeGroup10 y w := by
  simp [decodeWith]

theorem decodeWith_group11 (y w : BitVec 3) (b2 b3 : Byte) : decodeWith (opByte 0b11#2 y w) b2 b3 = decodeGroup11 y w := by
  simp [decodeWith]

/-- Group 00 for W other than 100 and 110: one byte (30_encoding.md R89, R90). -/
theorem decode_group00_alone (y : BitVec 3) {w : BitVec 3} (h : ¬ (w = 0b100#3 ∨ w = 0b110#3)) (rest : List Byte) :
    decode (opByte 0b00#2 y w :: rest) = .ok (decodeGroup00 y w 0, rest) := by
  have length : instrLength (opByte 0b00#2 y w) = 1 := by simp [instrLength_opByte, h]
  rw [decode_of_length_one length, decodeWith_group00]

/-- Group 00 for W = 100 and 110: an immediate byte follows (30_encoding.md R83, R89, R90). -/
theorem decode_group00_immediate (y : BitVec 3) {w : BitVec 3} (h : w = 0b100#3 ∨ w = 0b110#3) (data : Byte) (rest : List Byte) :
    decode (opByte 0b00#2 y w :: data :: rest) = .ok (decodeGroup00 y w data, rest) := by
  have length : instrLength (opByte 0b00#2 y w) = 2 := by simp [instrLength_opByte, h]
  rw [decode_of_length_two length, decodeWith_group00]

/-- Group 01 for even W: a target follows (30_encoding.md R84, R89, R91). -/
theorem decode_group01_target (y : BitVec 3) {w : BitVec 3} (h : w.getLsbD 0 = false) (b2 b3 : Byte) (rest : List Byte) :
    decode (opByte 0b01#2 y w :: b2 :: b3 :: rest) = .ok (decodeGroup01 (opByte 0b01#2 y w) y w (addrOf b2 b3), rest) := by
  have length : instrLength (opByte 0b01#2 y w) = 3 := by rw [instrLength_opByte, if_neg (by simp), if_pos ⟨rfl, h⟩]
  rw [decode_of_length_three length, decodeWith_group01]

theorem decode_group10 (y w : BitVec 3) (rest : List Byte) :
    decode (opByte 0b10#2 y w :: rest) = .ok (decodeGroup10 y w, rest) := by
  have length : instrLength (opByte 0b10#2 y w) = 1 := by simp [instrLength_opByte]
  rw [decode_of_length_one length, decodeWith_group10]

theorem decode_group11 (y w : BitVec 3) (rest : List Byte) :
    decode (opByte 0b11#2 y w :: rest) = .ok (decodeGroup11 y w, rest) := by
  have length : instrLength (opByte 0b11#2 y w) = 1 := by simp [instrLength_opByte]
  rw [decode_of_length_one length, decodeWith_group11]

/-! ## The patterns of group 00 (30_encoding.md R90) -/

theorem decodeIncrement_code {r : Reg} (h : r ≠ .a) : decodeIncrement r.code = .inrR r := by
  cases r
  case a => contradiction
  all_goals rfl

theorem decodeDecrement_code {r : Reg} (h : r ≠ .a) : decodeDecrement r.code = .dcrR r := by
  cases r
  case a => contradiction
  all_goals rfl

theorem decode_increment {r : Reg} (h : r ≠ .a) (rest : List Byte) :
    decode (opByte 0b00#2 r.code 0b000#3 :: rest) = .ok (.inrR r, rest) := by
  rw [decode_group00_alone _ (by decide), ← decodeIncrement_code h]
  rfl

theorem decode_decrement {r : Reg} (h : r ≠ .a) (rest : List Byte) :
    decode (opByte 0b00#2 r.code 0b001#3 :: rest) = .ok (.dcrR r, rest) := by
  rw [decode_group00_alone _ (by decide), ← decodeDecrement_code h]
  rfl

theorem decode_rotate (y : BitVec 3) (rest : List Byte) :
    decode (opByte 0b00#2 y 0b010#3 :: rest) = .ok (decodeRotate y, rest) := decode_group00_alone y (by decide) rest

theorem decode_returnConditional (tcc : BitVec 3) (rest : List Byte) :
    decode (opByte 0b00#2 tcc 0b011#3 :: rest) = .ok (returnConditional tcc, rest) := decode_group00_alone tcc (by decide) rest

theorem decode_aluImmediate (ppp : BitVec 3) (data : Byte) (rest : List Byte) :
    decode (opByte 0b00#2 ppp 0b100#3 :: data :: rest) = .ok (aluImmediate ppp data, rest) :=
  decode_group00_immediate ppp (.inl rfl) data rest

theorem decode_rst (n : BitVec 3) (rest : List Byte) :
    decode (opByte 0b00#2 n 0b101#3 :: rest) = .ok (.rst n, rest) := decode_group00_alone n (by decide) rest

theorem decodeMoveImmediate_code (r : Reg) (data : Byte) : decodeMoveImmediate r.code data = .mviR r data := by
  simp [decodeMoveImmediate]

theorem decode_mviR (r : Reg) (data : Byte) (rest : List Byte) :
    decode (opByte 0b00#2 r.code 0b110#3 :: data :: rest) = .ok (.mviR r data, rest) := by
  rw [decode_group00_immediate _ (.inr rfl), ← decodeMoveImmediate_code]
  rfl

theorem decode_mviM (data : Byte) (rest : List Byte) :
    decode (opByte 0b00#2 0b111#3 0b110#3 :: data :: rest) = .ok (.mviM data, rest) :=
  decode_group00_immediate 0b111#3 (.inr rfl) data rest

/-- The middle field of `RET` selects nothing (30_encoding.md R94). -/
theorem decode_ret (x : BitVec 3) (rest : List Byte) :
    decode (opByte 0b00#2 x 0b111#3 :: rest) = .ok (.ret, rest) := decode_group00_alone x (by decide) rest

/-! ## The patterns of group 01 (30_encoding.md R91) -/

theorem decode_jumpConditional (tcc : BitVec 3) (b2 b3 : Byte) (rest : List Byte) :
    decode (opByte 0b01#2 tcc 0b000#3 :: b2 :: b3 :: rest) = .ok (jumpConditional tcc (addrOf b2 b3), rest) :=
  decode_group01_target tcc rfl b2 b3 rest

theorem decode_callConditional (tcc : BitVec 3) (b2 b3 : Byte) (rest : List Byte) :
    decode (opByte 0b01#2 tcc 0b010#3 :: b2 :: b3 :: rest) = .ok (callConditional tcc (addrOf b2 b3), rest) :=
  decode_group01_target tcc rfl b2 b3 rest

/-- The middle field of `JMP` selects nothing (30_encoding.md R94). -/
theorem decode_jmp (x : BitVec 3) (b2 b3 : Byte) (rest : List Byte) :
    decode (opByte 0b01#2 x 0b100#3 :: b2 :: b3 :: rest) = .ok (.jmp (addrOf b2 b3), rest) :=
  decode_group01_target x rfl b2 b3 rest

/-- The middle field of `CALL` selects nothing (30_encoding.md R94). -/
theorem decode_call (x : BitVec 3) (b2 b3 : Byte) (rest : List Byte) :
    decode (opByte 0b01#2 x 0b110#3 :: b2 :: b3 :: rest) = .ok (.call (addrOf b2 b3), rest) :=
  decode_group01_target x rfl b2 b3 rest

theorem decode_input (p : BitVec 3) (rest : List Byte) :
    decode ((0b0100#4 ++ p ++ 1#1 : BitVec (4 + 3 + 1)) :: rest) = .ok (.inP p, rest) := by
  have length : instrLength (0b0100#4 ++ p ++ 1#1 : BitVec (4 + 3 + 1)) = 1 := by revert p; decide
  have names : decodeWith (0b0100#4 ++ p ++ 1#1 : BitVec (4 + 3 + 1)) 0 0 = .inP p := by revert p; decide
  rw [decode_of_length_one length, names]

theorem decode_output {p : BitVec 5} (h : 8 ≤ p.toNat) (rest : List Byte) :
    decode ((0b01#2 ++ p ++ 1#1 : BitVec (2 + 5 + 1)) :: rest) = .ok (.outP p, rest) := by
  have length : instrLength (0b01#2 ++ p ++ 1#1 : BitVec (2 + 5 + 1)) = 1 := by revert p; decide
  have names : decodeWith (0b01#2 ++ p ++ 1#1 : BitVec (2 + 5 + 1)) 0 0 = .outP p := by revert p; decide
  rw [decode_of_length_one length, names]

/-! ## The patterns of groups 10 and 11 (30_encoding.md R92, R93) -/

theorem decode_aluRegister (ppp : BitVec 3) (src : Reg) (rest : List Byte) :
    decode (opByte 0b10#2 ppp src.code :: rest) = .ok (aluRegister ppp src, rest) := by
  simp [decode_group10, decodeGroup10]

theorem decode_aluMemory (ppp : BitVec 3) (rest : List Byte) :
    decode (opByte 0b10#2 ppp 0b111#3 :: rest) = .ok (aluMemory ppp, rest) := decode_group10 ppp 0b111#3 rest

theorem Reg.ofCode_memory : Reg.ofCode 0b111#3 = none := rfl

theorem decode_movRR (dst src : Reg) (rest : List Byte) :
    decode (opByte 0b11#2 dst.code src.code :: rest) = .ok (.movRR dst src, rest) := by
  simp [decode_group11, decodeGroup11]

theorem decode_movRM (dst : Reg) (rest : List Byte) :
    decode (opByte 0b11#2 dst.code 0b111#3 :: rest) = .ok (.movRM dst, rest) := by
  simp [decode_group11, decodeGroup11, Reg.ofCode_memory]

theorem decode_movMR (src : Reg) (rest : List Byte) :
    decode (opByte 0b11#2 0b111#3 src.code :: rest) = .ok (.movMR src, rest) := by
  simp [decode_group11, decodeGroup11, Reg.ofCode_memory]

/-! ## Decoding after encoding -/

/-- The bytes the encoder writes for a target give it back (30_encoding.md R84). -/
theorem decode_encode3 {y w : BitVec 3} (h : w.getLsbD 0 = false) (t : Addr) (rest : List Byte) :
    decode (encode3 y w t ++ rest) = .ok (decodeGroup01 (opByte 0b01#2 y w) y w t, rest) := by
  have target := decode_group01_target y h (addrLow t) (addrHigh t) rest
  rwa [addrOf_low_high] at target

/-- Settles O6: the constructors family by family, each by its pattern's decoding. -/
theorem decodeAfterEncode : Obligations.DecodeAfterEncode := by
  intro i rest wf
  cases i
  case movRR dst src => exact decode_movRR dst src rest
  case movRM dst => exact decode_movRM dst rest
  case movMR src => exact decode_movMR src rest
  case mviR dst data => exact decode_mviR dst data rest
  case mviM data => exact decode_mviM data rest
  case inrR r => exact decode_increment (by simpa [Instr.wellFormed] using wf) rest
  case dcrR r => exact decode_decrement (by simpa [Instr.wellFormed] using wf) rest
  case addR r | adcR r | subR r | sbbR r | anaR r | xraR r | oraR r | cmpR r => exact decode_aluRegister _ r rest
  case addM | adcM | subM | sbbM | anaM | xraM | oraM | cmpM => exact decode_aluMemory _ rest
  case adi v | aci v | sui v | sbi v | ani v | xri v | ori v | cpi v => exact decode_aluImmediate _ v rest
  case rlc | rrc | ral | rar => exact decode_rotate _ rest
  case jmp t | jnc t | jnz t | jp t | jpo t | jc t | jz t | jm t | jpe t => exact decode_encode3 rfl t rest
  case call t | cnc t | cnz t | cp t | cpo t | cc t | cz t | cm t | cpe t => exact decode_encode3 rfl t rest
  case ret => exact decode_ret 0b000#3 rest
  case rnc | rnz | rp | rpo | rc | rz | rm | rpe => exact decode_returnConditional _ rest
  case rst n => exact decode_rst n rest
  case inP p => exact decode_input p rest
  case outP p => exact decode_output (Instr.wellFormed_outP wf) rest
  case hlt => exact decode_group00_alone 0b000#3 (by decide) rest
  case hltFF => exact decode_group11 0b111#3 0b111#3 rest
  case undef22 => exact decode_rotate 0b100#3 rest
  case undef2A => exact decode_rotate 0b101#3 rest
  case undef32 => exact decode_rotate 0b110#3 rest
  case undef3A => exact decode_rotate 0b111#3 rest
  case undef38 => exact decode_group00_alone 0b111#3 (w := 0b000#3) (by decide) rest
  case undef39 => exact decode_group00_alone 0b111#3 (w := 0b001#3) (by decide) rest

/-! ## The tables of the encoding -/

/-- A target as a number: the low six bits of the third byte, and then the second byte (30_encoding.md R84). -/
theorem addrOf_toNat (b2 b3 : Byte) : (addrOf b2 b3).toNat = (b3.toNat % 64) * 256 + b2.toNat := by
  have below : b2.toNat < 2 ^ 8 := b2.isLt
  rw [addrOf, BitVec.toNat_append, ← Nat.shiftLeft_add_eq_or_of_lt below, Nat.shiftLeft_eq, BitVec.extractLsb'_toNat]
  simp

theorem eq_addrOf {b2 b3 : Byte} {t : Addr} (h : t.toNat = (b3.toNat % 64) * 256 + b2.toNat) : t = addrOf b2 b3 :=
  BitVec.eq_of_toNat_eq (h.trans (addrOf_toNat b2 b3).symm)

/-- Settles O2: the samples evaluated, and each pattern by its own lemma with nothing after it. -/
theorem encodingTablesDecode : Obligations.EncodingTablesDecode := by
  refine ⟨?samples, ?movRR, ?movM, ?moveImmediate, ?steps, ?aluRegister, ?aluMemory, ?aluImmediate, ?rotates, ?transfers,
    ?conditionals, ?returns, ?restarts, ?inputs, ?outputs, by decide, by decide⟩
  case samples => and_intros <;> rfl
  case movRR => exact fun dst src => decode_movRR dst src []
  case movM => exact fun r => ⟨decode_movRM r [], decode_movMR r []⟩
  case moveImmediate => exact fun r v => ⟨decode_mviR r v [], decode_mviM v []⟩
  case steps => exact fun r h => ⟨decode_increment h [], decode_decrement h []⟩
  case aluRegister =>
    intro r
    have row := fun ppp => decode_aluRegister ppp r []
    exact ⟨row 0, row 1, row 2, row 3, row 4, row 5, row 6, row 7⟩
  case aluMemory =>
    have row := fun ppp => decode_aluMemory ppp []
    exact ⟨row 0, row 1, row 2, row 3, row 4, row 5, row 6, row 7⟩
  case aluImmediate =>
    intro v
    have row := fun ppp => decode_aluImmediate ppp v []
    exact ⟨row 0, row 1, row 2, row 3, row 4, row 5, row 6, row 7⟩
  case rotates =>
    have row := fun y => decode_rotate y []
    exact ⟨row 0, row 1, row 2, row 3⟩
  case transfers =>
    intro x b2 b3 t h
    obtain rfl := eq_addrOf h
    exact ⟨decode_jmp x b2 b3 [], decode_call x b2 b3 [], decode_ret x []⟩
  case conditionals =>
    intro b2 b3 t h
    obtain rfl := eq_addrOf h
    have jump := fun tcc => decode_jumpConditional tcc b2 b3 []
    have call := fun tcc => decode_callConditional tcc b2 b3 []
    exact ⟨jump 0, jump 1, jump 2, jump 3, jump 4, jump 5, jump 6, jump 7, call 0, call 1, call 2, call 3, call 4, call 5, call 6,
      call 7⟩
  case returns =>
    have row := fun tcc => decode_returnConditional tcc []
    exact ⟨row 0, row 1, row 2, row 3, row 4, row 5, row 6, row 7⟩
  case restarts => exact fun n => decode_rst n []
  case inputs => exact fun p => decode_input p []
  case outputs => exact fun p h => decode_output h []

/-! ## The bytes a list holds after its first instruction -/

/-- Settles O7: each way a list decodes answers what `decodeWith` does. -/
theorem decodedIsWellFormed : Obligations.DecodedIsWellFormed := by
  intro bytes i rest h
  cases bytes with
  | nil => cases h
  | cons op more =>
    rcases decode_cons_cases h with ⟨_, _, rfl⟩ | ⟨b2, _, _, rfl⟩ | ⟨b2, b3, _, _, rfl⟩ <;> exact decodeWith_wellFormed _ _ _

/-- Settles O8: the bytes taken are the first and none, one or two more, as its length says. -/
theorem decodeTakesWholeInstructions : Obligations.DecodeTakesWholeInstructions := by
  intro bytes i rest h
  cases bytes with
  | nil => cases h
  | cons op more =>
    rcases decode_cons_cases h with ⟨length, rfl, rfl⟩ | ⟨b2, length, rfl, rfl⟩ | ⟨b2, b3, length, rfl, rfl⟩
    · exact ⟨op, [], rfl, length, decode_of_length_one length []⟩
    · exact ⟨op, [b2], rfl, length, decode_of_length_two length b2 []⟩
    · exact ⟨op, [b2, b3], rfl, length, decode_of_length_three length b2 b3 []⟩

/-! ## Don't-care bits -/

/-- A target does not depend on bits 7..6 of its third byte (30_encoding.md R94). -/
theorem addrOf_congr {b2 b3 b3' : Byte} (h : b3.toNat % 64 = b3'.toNat % 64) : addrOf b2 b3 = addrOf b2 b3' :=
  eq_addrOf ((addrOf_toNat b2 b3).trans (by rw [h]))

/-- The third byte is read as a part of the target only (30_encoding.md R84). -/
theorem decodeWith_congr {op b2 b3 b3' : Byte} (h : addrOf b2 b3 = addrOf b2 b3') : decodeWith op b2 b3 = decodeWith op b2 b3' := by
  simp [decodeWith, h]

/-- Settles O5: each of the patterns decodes alike for all its don't-care bits. -/
theorem dontCareBitsSelectNothing : Obligations.DontCareBitsSelectNothing := by
  refine ⟨fun x b2 b3 => ⟨⟨addrOf b2 b3, addrOf_toNat b2 b3, ?jmp, ?call⟩, ?ret, rfl, rfl⟩,
    fun op b2 b3 b3' length same => ?third⟩
  case jmp => exact decodeWith_group01 x 0b100#3 b2 b3
  case call => exact decodeWith_group01 x 0b110#3 b2 b3
  case ret => exact decodeWith_group00 x 0b111#3 b2 b3
  case third =>
    rw [decode_of_length_three length, decode_of_length_three length, decodeWith_congr (addrOf_congr same)]

end Sys2Proof

namespace Sys2Proof.Machine

/-! ## What the first byte alone decides -/

/-- Two instructions of one group whose encodings have one first byte. -/
def SameForm (i j : Instr) : Prop := groupOf i = groupOf j ∧ (encode i).head? = (encode j).head?

theorem aluImmediate_sameForm (ppp : BitVec 3) (v w : Byte) : SameForm (aluImmediate ppp v) (aluImmediate ppp w) := by
  unfold aluImmediate
  split <;> exact ⟨rfl, rfl⟩

theorem decodeMoveImmediate_sameForm (y : BitVec 3) (v w : Byte) : SameForm (decodeMoveImmediate y v) (decodeMoveImmediate y w) := by
  unfold decodeMoveImmediate
  split <;> exact ⟨rfl, rfl⟩

theorem jumpConditional_sameForm (tcc : BitVec 3) (t u : Addr) : SameForm (jumpConditional tcc t) (jumpConditional tcc u) := by
  unfold jumpConditional
  split <;> exact ⟨rfl, rfl⟩

theorem callConditional_sameForm (tcc : BitVec 3) (t u : Addr) : SameForm (callConditional tcc t) (callConditional tcc u) := by
  unfold callConditional
  split <;> exact ⟨rfl, rfl⟩

/-- The further bytes of an instruction are operands: they choose neither its group nor its pattern (30_encoding.md R83, R84). -/
theorem decodeWith_sameForm (op b2 b3 c2 c3 : Byte) : SameForm (decodeWith op b2 b3) (decodeWith op c2 c3) := by
  unfold decodeWith
  split
  · unfold decodeGroup00
    split
    case h_5 => exact aluImmediate_sameForm _ _ _
    case h_7 => exact decodeMoveImmediate_sameForm _ _ _
    all_goals exact ⟨rfl, rfl⟩
  · unfold decodeGroup01
    split
    · exact jumpConditional_sameForm _ _ _
    · exact callConditional_sameForm _ _ _
    all_goals exact ⟨rfl, rfl⟩
  · exact ⟨rfl, rfl⟩
  · exact ⟨rfl, rfl⟩

/-! ## The six undefined first bytes -/

/-- Settles O4: the further bytes do not matter, and the first is evaluated. -/
theorem undefinedFirstBytesAreSix : Obligations.UndefinedFirstBytesAreSix := by
  intro op b2 b3
  have alone : groupOf (decodeWith op 0 0) = .undefined ↔ op ∈ undefinedBytes := by revert op; decide
  obtain ⟨group, _⟩ := decodeWith_sameForm op b2 b3 0 0
  rw [group, alone]

/-- Settles O43: each of the six arms refuses its own byte. -/
theorem undefinedBytesAreRefused : Obligations.UndefinedBytesAreRefused := fun _ => ⟨rfl, rfl, rfl, rfl, rfl, rfl⟩

/-! ## First bytes that share an instruction -/

/-- A first byte with its don't-care bits 0 (30_encoding.md R94): bit 0 of the first `HLT`, bits 5..3 of `JMP`, `CALL` and `RET`. -/
def clearDontCare (op : Byte) : Byte :=
  if op &&& 0xFE = 0 then 0
  else if op &&& 0xC7 ∈ ([0x44, 0x46, 0x07] : List Byte) then op &&& 0xC7
  else op

/-- Encoding what a first byte decodes to writes that byte again, its don't-care bits 0. -/
theorem encode_decodeWith_head (op b2 b3 : Byte) : (encode (decodeWith op b2 b3)).head? = some (clearDontCare op) := by
  have alone : (encode (decodeWith op 0 0)).head? = some (clearDontCare op) := by revert op; decide
  obtain ⟨_, head⟩ := decodeWith_sameForm op b2 b3 0 0
  exact head.trans alone

/-- Which bits are cleared can be seen from the byte that results. -/
theorem of_clearDontCare (op : Byte) :
    (clearDontCare op = 0 → op &&& 0xFE = 0) ∧
      (clearDontCare op ∈ ([0x44, 0x46, 0x07] : List Byte) → op &&& 0xC7 = clearDontCare op) ∧
      (clearDontCare op ≠ 0 → clearDontCare op ∉ ([0x44, 0x46, 0x07] : List Byte) → clearDontCare op = op) := by
  revert op; decide

/-- Settles O9: bytes of one instruction are equal once their don't-care bits are 0. -/
theorem firstBytesShareNoInstruction : Obligations.FirstBytesShareNoInstruction := by
  intro op op' b2 b2' b3 b3' h
  have same : clearDontCare op = clearDontCare op' := by
    simpa [encode_decodeWith_head] using congrArg (fun i => (encode i).head?) h
  obtain ⟨halt, transfer, other⟩ := of_clearDontCare op
  obtain ⟨halt', transfer', other'⟩ := of_clearDontCare op'
  rw [← same] at halt' transfer' other'
  by_cases zero : clearDontCare op = 0
  · exact .inr (.inl ⟨halt zero, halt' zero⟩)
  by_cases row : clearDontCare op ∈ ([0x44, 0x46, 0x07] : List Byte)
  · have masked : op &&& 0xC7 ∈ ([0x44, 0x46, 0x07] : List Byte) := by rwa [transfer row]
    exact .inr (.inr ⟨(transfer row).trans (transfer' row).symm, by simpa using masked⟩)
  · exact .inl ((other zero row).symm.trans (other' zero row))

/-! ## How an instruction stops -/

/-- The sense bit 0 tests that the flag is clear, 1 that it is set (42_pc_stack_control.md R180). -/
theorem taken_eq (f : Flags) (cc : BitVec 2) : f.taken false cc = !f.condition cc ∧ f.taken true cc = f.condition cc := by
  simp [Flags.taken]

/-- The form of an instruction's meaning, as far as the stack is concerned: a call that is made when `pushes` says so, a return that is
made when `pops` says so, an undefined byte, or a meaning that always answers. -/
theorem exec_transfer_cases (i : Instr) (s : State) :
    (pops s.flags i = false ∧ ∃ a, exec i s = s.callIf (pushes s.flags i) a)
      ∨ (pushes s.flags i = false ∧ exec i s = s.returnIf (pops s.flags i))
      ∨ (pushes s.flags i = false ∧ pops s.flags i = false ∧ (groupOf i = .undefined ∨ ∃ t, exec i s = .next t)) := by
  cases i
  case call a => exact .inl ⟨rfl, a, rfl⟩
  case rst n => exact .inl ⟨rfl, restartAddr n, rfl⟩
  case cnc a | cnz a | cp a | cpo a => exact .inl ⟨rfl, a, congrArg (s.callIf · a) (taken_eq s.flags _).1⟩
  case cc a | cz a | cm a | cpe a => exact .inl ⟨rfl, a, congrArg (s.callIf · a) (taken_eq s.flags _).2⟩
  case ret => exact .inr (.inl ⟨rfl, rfl⟩)
  case rnc | rnz | rp | rpo => exact .inr (.inl ⟨rfl, congrArg s.returnIf (taken_eq s.flags _).1⟩)
  case rc | rz | rm | rpe => exact .inr (.inl ⟨rfl, congrArg s.returnIf (taken_eq s.flags _).2⟩)
  case undef22 | undef2A | undef32 | undef3A | undef38 | undef39 => exact .inr (.inr ⟨rfl, rfl, .inl rfl⟩)
  all_goals exact .inr (.inr ⟨rfl, rfl, .inr ⟨_, rfl⟩⟩)

theorem exec_of_pushes {i : Instr} {s : State} (h : pushes s.flags i = true) : ∃ a, exec i s = s.tryPush a := by
  rcases exec_transfer_cases i s with ⟨_, a, e⟩ | ⟨not, _⟩ | ⟨not, _⟩
  · exact ⟨a, by rw [e, h]; rfl⟩
  · simp [h] at not
  · simp [h] at not

theorem exec_of_pops {i : Instr} {s : State} (h : pops s.flags i = true) : exec i s = s.tryPop := by
  rcases exec_transfer_cases i s with ⟨not, _⟩ | ⟨_, e⟩ | ⟨_, not, _⟩
  · simp [h] at not
  · rw [e, h]; rfl
  · simp [h] at not

theorem State.tryPush_of_refused {s : State} (t : Addr) (h : s.PushRefused) : s.tryPush t = .refused .pushAtDepthSeven := if_pos h

theorem State.tryPop_of_refused {s : State} (h : s.PopRefused) : s.tryPop = .refused .popAtDepthZero := if_pos h

/-- A call that is made is refused where the stack policy refuses a push (10_state.md R32). -/
theorem exec_refused_of_pushes {i : Instr} {s : State} (h : pushes s.flags i = true) (refused : s.PushRefused) :
    exec i s = .refused .pushAtDepthSeven := by
  obtain ⟨a, e⟩ := exec_of_pushes h
  rw [e, State.tryPush_of_refused a refused]

/-- A return that is made is refused where the stack policy refuses a pop (10_state.md R32). -/
theorem exec_refused_of_pops {i : Instr} {s : State} (h : pops s.flags i = true) (refused : s.PopRefused) :
    exec i s = .refused .popAtDepthZero := by
  rw [exec_of_pops h, State.tryPop_of_refused refused]

/-- An instruction of an undefined first byte is refused by that byte (30_encoding.md R95). -/
theorem exec_decodeWith_undefined {op : Byte} (h : op ∈ undefinedBytes) (b2 b3 : Byte) (s : State) :
    exec (decodeWith op b2 b3) s = .refused (.undefinedOpcode op) := by
  simp only [undefinedBytes, List.mem_cons, List.not_mem_nil, or_false] at h
  rcases h with rfl | rfl | rfl | rfl | rfl | rfl <;> rfl

/-- An instruction is refused only as an undefined byte, as a push it makes, or as a pop it makes. -/
theorem exec_refused_only {i : Instr} {s : State} {r : Refusal} (h : exec i s = .refused r) :
    groupOf i = .undefined ∨ (r = .pushAtDepthSeven ∧ s.PushRefused ∧ pushes s.flags i = true)
      ∨ (r = .popAtDepthZero ∧ s.PopRefused ∧ pops s.flags i = true) := by
  rcases exec_transfer_cases i s with ⟨_, a, e⟩ | ⟨_, e⟩ | ⟨_, _, undefined | ⟨t, e⟩⟩
  · rcases s.callIf_cases (pushes s.flags i) a with ⟨made, f⟩ | ⟨_, f⟩
    · rcases s.tryPush_cases a with ⟨_, g⟩ | ⟨refused, g⟩ <;> rw [e, f, g] at h <;> cases h
      exact .inr (.inl ⟨rfl, refused, made⟩)
    · rw [e, f] at h
      cases h
  · rcases s.returnIf_cases (pops s.flags i) with ⟨made, f⟩ | ⟨_, f⟩
    · rcases s.tryPop_cases with ⟨_, g⟩ | ⟨refused, g⟩ <;> rw [e, f, g] at h <;> cases h
      exact .inr (.inr ⟨rfl, refused, made⟩)
    · rw [e, f] at h
      cases h
  · exact .inl undefined
  · rw [e] at h
    cases h

/-! ## How a step stops -/

theorem step_of_nextInstr {s u : State} {i : Instr} (h : s.nextInstr = some (i, u)) : step s = endStep (exec i u) := by
  simp [step, h]

/-- The instruction a step runs is one its first byte decodes to. -/
theorem nextInstr_firstByte {s u : State} {i : Instr} (h : s.nextInstr = some (i, u)) :
    ∃ op b2 b3, s.firstByte = some op ∧ i = decodeWith op b2 b3 := by
  rcases nextInstr_cases h with ⟨pending, supplied⟩ | ⟨quiet, running, fetched⟩
  · obtain ⟨b2, b3, _, _, rest⟩ := s.enterInterrupt.fetchRest_spec s.intByte
    exact ⟨s.intByte, b2, b3, by simp [State.firstByte, pending], congrArg Prod.fst (supplied.trans rest)⟩
  · obtain ⟨b2, b3, _, _, rest⟩ := s.fetch.2.fetchRest_spec s.fetch.1
    exact ⟨s.fetch.1, b2, b3, State.firstByte_of_running running quiet, congrArg Prod.fst (fetched.trans rest)⟩

/-- Where there is a first byte, the step runs an instruction it decodes to. -/
theorem nextInstr_of_firstByte {s : State} {op : Byte} (h : s.firstByte = some op) :
    ∃ b2 b3 u, s.nextInstr = some (decodeWith op b2 b3, u) := by
  cases next : s.nextInstr with
  | none =>
    unfold State.nextInstr at next
    unfold State.firstByte at h
    split at next
    · cases next
    · rename_i quiet
      cases running : s.run <;> simp [quiet, running] at next h
  | some pair =>
    obtain ⟨i, u⟩ := pair
    obtain ⟨op', b2, b3, first, rfl⟩ := nextInstr_firstByte next
    obtain rfl : op' = op := Option.some.inj (first.symm.trans h)
    exact ⟨b2, b3, u, rfl⟩

/-- Fetching an instruction, or taking the interrupt's, keeps the flags and what the stack policy refuses. -/
theorem nextInstr_keeps {s u : State} {i : Instr} (h : s.nextInstr = some (i, u)) :
    u.flags = s.flags ∧ (u.PushRefused ↔ s.PushRefused) ∧ (u.PopRefused ↔ s.PopRefused) := by
  obtain ⟨w, _, _, rfl | rfl, rfl⟩ := nextInstr_state h <;> exact ⟨rfl, .rfl, .rfl⟩

/-- The environment's action at the end of a step makes and mends no stop. -/
theorem endStep_eq_refused_iff {x : Result} {r : Refusal} : endStep x = .refused r ↔ x = .refused r := by
  cases x <;> simp [endStep]

/-- An undefined first byte refuses the step (30_encoding.md R95). -/
theorem step_refused_of_undefined {s : State} {op : Byte} (h : op ∈ undefinedBytes) (first : s.firstByte = some op) :
    step s = .refused (.undefinedOpcode op) := by
  obtain ⟨b2, b3, u, next⟩ := nextInstr_of_firstByte first
  rw [step_of_nextInstr next, exec_decodeWith_undefined h, endStep]

theorem step_refused_of_push {s : State} (refused : s.PushRefused) (h : s.NextPushes) : step s = .refused .pushAtDepthSeven := by
  obtain ⟨i, u, next, push⟩ := h
  obtain ⟨flags, pushRefused, _⟩ := nextInstr_keeps next
  rw [step_of_nextInstr next, exec_refused_of_pushes (flags ▸ push) (pushRefused.mpr refused), endStep]

theorem step_refused_of_pop {s : State} (refused : s.PopRefused) (h : s.NextPops) : step s = .refused .popAtDepthZero := by
  obtain ⟨i, u, next, pop⟩ := h
  obtain ⟨flags, _, popRefused⟩ := nextInstr_keeps next
  rw [step_of_nextInstr next, exec_refused_of_pops (flags ▸ pop) (popRefused.mpr refused), endStep]

/-- Every way a step can be refused. -/
theorem step_refused_cases {s : State} {r : Refusal} (h : step s = .refused r) :
    (∃ op ∈ undefinedBytes, s.firstByte = some op ∧ r = .undefinedOpcode op)
      ∨ (r = .pushAtDepthSeven ∧ s.PushRefused ∧ s.NextPushes) ∨ (r = .popAtDepthZero ∧ s.PopRefused ∧ s.NextPops) := by
  cases next : s.nextInstr with
  | none => simp [step, next] at h
  | some pair =>
    obtain ⟨i, u⟩ := pair
    obtain ⟨op, b2, b3, first, decoded⟩ := nextInstr_firstByte next
    obtain ⟨flags, pushRefused, popRefused⟩ := nextInstr_keeps next
    rw [step_of_nextInstr next, endStep_eq_refused_iff] at h
    rcases exec_refused_only h with undefined | ⟨rfl, refused, push⟩ | ⟨rfl, refused, pop⟩
    · subst decoded
      have six : op ∈ undefinedBytes := (undefinedFirstBytesAreSix op b2 b3).mp undefined
      rw [exec_decodeWith_undefined six] at h
      cases h
      exact .inl ⟨op, six, first, rfl⟩
    · exact .inr (.inl ⟨rfl, pushRefused.mp refused, i, u, next, flags ▸ push⟩)
    · exact .inr (.inr ⟨rfl, popRefused.mp refused, i, u, next, flags ▸ pop⟩)

/-- A step answers a next state or is refused, for there is no fault (60_exceptions.md R250). -/
theorem step_next_or_refused (s : State) : (∃ t, step s = .next t) ∨ ∃ r, step s = .refused r := by
  cases h : step s with
  | next t => exact .inl ⟨t, rfl⟩
  | fault r => cases r
  | refused r => exact .inr ⟨r, rfl⟩

/-- Settles O50: each of the three stops has its condition, and a step with none of them is not refused. -/
theorem stepStopsExactlyOnUndefinedBytesAndTheStackPolicy : Obligations.StepStopsExactlyOnUndefinedBytesAndTheStackPolicy := by
  intro s
  refine ⟨fun op => ⟨fun h => ?undefined, fun ⟨six, first⟩ => step_refused_of_undefined six first⟩,
    ⟨fun h => ?push, fun ⟨refused, push⟩ => step_refused_of_push refused push⟩,
    ⟨fun h => ?pop, fun ⟨refused, pop⟩ => step_refused_of_pop refused pop⟩, ?next, ?answers⟩
  case undefined =>
    rcases step_refused_cases h with ⟨_, six, first, same⟩ | ⟨other, _⟩ | ⟨other, _⟩
    · cases same
      exact ⟨six, first⟩
    · cases other
    · cases other
  case push =>
    rcases step_refused_cases h with ⟨_, _, _, other⟩ | ⟨_, push⟩ | ⟨other, _⟩
    · cases other
    · exact push
    · cases other
  case pop =>
    rcases step_refused_cases h with ⟨_, _, _, other⟩ | ⟨other, _⟩ | ⟨_, pop⟩
    · cases other
    · cases other
    · exact pop
  case next =>
    rintro ⟨t, h⟩
    have answers : ∀ r, step s ≠ .refused r := fun r refused => by cases h.symm.trans refused
    exact ⟨fun op six first => answers _ (step_refused_of_undefined six first),
      fun ⟨refused, push⟩ => answers _ (step_refused_of_push refused push),
      fun ⟨refused, pop⟩ => answers _ (step_refused_of_pop refused pop)⟩
  case answers =>
    rintro ⟨defined, noPush, noPop⟩
    rcases step_next_or_refused s with answers | ⟨r, h⟩
    · exact answers
    · rcases step_refused_cases h with ⟨op, six, first, _⟩ | ⟨_, push⟩ | ⟨_, pop⟩
      · exact absurd first (defined op six)
      · exact absurd push noPush
      · exact absurd pop noPop

end Sys2Proof.Machine
end
section
/-! SUPPORT and the statements of 40_index_register.md: bytes that decode are the encoding; what a register write, a stepped register and a
store leave unchanged; the memory operand read. -/

namespace Sys2Proof.Machine

/-! ## Encodings -/

/-- Bytes that decode to an instruction are its encoding wherever they are stepped. -/
theorem EncodedAs.of_decode {bytes : List Byte} {i : Instr} (h : decode bytes = .ok (i, [])) : EncodedAs bytes i :=
  fun _ => step_of_atInstr h

/-! ## What a register write leaves unchanged -/

theorem SameRegsBut.setReg (s : State) (r : Reg) (v : Byte) : SameRegsBut r s (s.setReg r v) :=
  fun _ other => s.reg_setReg_of_ne v other

/-- New registers and flags, and draws, are nothing outside the registers, the flags and the draws. -/
theorem SameOutsideAlu.of_compute (s : State) (x : Regs) (f : Flags) (n : Nat) :
    SameOutsideAlu s { s with regs := x, flags := f, draws := n } :=
  ⟨⟨rfl, rfl, fun _ => rfl⟩, ⟨rfl, rfl⟩, .refl s, ⟨rfl, rfl⟩, ⟨rfl, rfl⟩, rfl⟩

/-- A register loaded after the draws have come to `n`. -/
theorem State.setReg_loads (s : State) (n : Nat) (dst : Reg) (v : Byte) :
    ((s.setDraws n).setReg dst v).reg dst = v ∧ SameRegsBut dst s ((s.setDraws n).setReg dst v) ∧
      SameFlags s ((s.setDraws n).setReg dst v) ∧ SameOutsideAlu s ((s.setDraws n).setReg dst v) ∧
      ((s.setDraws n).setReg dst v).draws = n :=
  ⟨(s.setDraws n).reg_setReg_self dst v, .setReg (s.setDraws n) dst v, rfl, .of_compute s _ _ n, rfl⟩

/-! ## MOV r1,r2 and MVI r -/

theorem exec_movRR (dst src : Reg) (s : State) : exec (.movRR dst src) s = .next (s.setReg dst (s.reg src)) := rfl

theorem exec_mviR (dst : Reg) (data : Byte) (s : State) : exec (.mviR dst data) s = .next (s.setReg dst data) := rfl

/-- Settles O10: the byte decodes to the move, which is one register write. -/
theorem movRegisterCopiesTheSource : Obligations.MovRegisterCopiesTheSource := fun dst src =>
  ⟨.of_decode (decode_movRR dst src []), fun s => ⟨_, exec_movRR dst src s, s.setReg_loads s.draws dst (s.reg src)⟩⟩

/-- Settles O14: the bytes decode to the immediate load, which is one register write. -/
theorem mviLoadsTheImmediate : Obligations.MviLoadsTheImmediate := fun dst data =>
  ⟨.of_decode (decode_mviR dst data []), fun s => ⟨_, exec_mviR dst data s, s.setReg_loads s.draws dst data⟩⟩

/-! ## MOV r,M -/

/-- The memory operand M read: what it reads as, and its draws used up (20_memory.md R55). -/
theorem OperandM.readM_eq {s : State} {v : Byte} {n : Nat} (h : OperandM s v n) : s.readM = (v, s.setDraws n) := by
  rcases h with ⟨present, rfl, rfl⟩ | ⟨absent, rfl, rfl⟩
  · exact s.memRead_of_present present
  · exact s.memRead_of_absent absent

theorem exec_movRM {s : State} {v : Byte} {n : Nat} (dst : Reg) (h : OperandM s v n) :
    exec (.movRM dst) s = .next ((s.setDraws n).setReg dst v) := by
  have load : exec (.movRM dst) s = .next (s.readM.2.setReg dst s.readM.1) := rfl
  rw [load, h.readM_eq]

/-- Settles O11: after the read it is one register write. -/
theorem movFromMemoryLoadsM : Obligations.MovFromMemoryLoadsM :=
  fun s dst v n operand => ⟨_, exec_movRM dst operand, s.setReg_loads n dst v⟩

/-! ## The stores -/

/-- A store changes no register, flag, stack entry, port or other field outside memory (20_memory.md R51). -/
theorem State.writeM_frame (s : State) (v : Byte) :
    (s.writeM v).memMap = s.memMap ∧ SameRegs s (s.writeM v) ∧ SameFlags s (s.writeM v) ∧ SameStack s (s.writeM v) ∧
      SameRunState s (s.writeM v) ∧ SamePorts s (s.writeM v) ∧ SameInterruptSource s (s.writeM v) ∧ SamePolicy s (s.writeM v) ∧
      SameDraws s (s.writeM v) := by
  rw [State.writeM, State.memWrite_eq]
  exact ⟨rfl, fun _ => rfl, rfl, ⟨rfl, rfl, fun _ => rfl⟩, ⟨rfl, rfl⟩, ⟨rfl, rfl⟩, ⟨rfl, rfl⟩, rfl, rfl⟩

/-- Settles O12: both stores write M, where `memWrite_byteAt` says what every address holds. -/
theorem storesWriteOnlyM : Obligations.StoresWriteOnlyM := fun s _ v storing =>
  ⟨s.writeM v, exec_store storing, fun a => s.memWrite_byteAt s.mAddr a v, s.writeM_frame v⟩

/-! ## INR and DCR -/

theorem exec_inrR (r : Reg) (s : State) : exec (.inrR r) s = .next (s.stepReg r (s.reg r + 1)) := rfl

theorem exec_dcrR (r : Reg) (s : State) : exec (.dcrR r) s = .next (s.stepReg r (s.reg r - 1)) := rfl

theorem byte_add_one_toNat (v : Byte) : (v + 1).toNat = (v.toNat + 1) % 256 := BitVec.toNat_add v 1

theorem byte_sub_one_toNat (v : Byte) : (v - 1).toNat = (v.toNat + 255) % 256 := by
  rw [BitVec.toNat_sub, Nat.add_comm]
  rfl

/-- `SetZSP` by the result, and the carry kept (10_state.md R27). -/
theorem Flags.setZSP_iff (f : Flags) (v : Byte) :
    (f.setZSP v).cy = f.cy ∧ ((f.setZSP v).z = true ↔ v = 0) ∧ (f.setZSP v).s = v.msb ∧
      ((f.setZSP v).p = true ↔ onesCount v % 2 = 0) :=
  ⟨rfl, beq_iff_eq, v.msb_eq_getLsbD_last.symm, evenParity_iff v⟩

/-- A stepped register: zero, sign and parity from its new value, and all else kept (40_index_register.md R115, R116). -/
theorem State.stepReg_steps (s : State) (r : Reg) (v : Byte) :
    SameRegsBut r s (s.stepReg r v) ∧ (s.stepReg r v).flags.cy = s.flags.cy ∧
      ((s.stepReg r v).flags.z = true ↔ (s.stepReg r v).reg r = 0) ∧ (s.stepReg r v).flags.s = ((s.stepReg r v).reg r).msb ∧
      ((s.stepReg r v).flags.p = true ↔ onesCount ((s.stepReg r v).reg r) % 2 = 0) ∧ SameOutsideAlu s (s.stepReg r v) ∧
      SameDraws s (s.stepReg r v) := by
  have value : (s.stepReg r v).reg r = v := s.reg_setReg_self r v
  obtain ⟨carry, zero, sign, parity⟩ := s.flags.setZSP_iff v
  rw [value]
  exact ⟨.setReg s r v, carry, zero, sign, parity, .of_compute s _ _ s.draws, rfl⟩

/-- Settles O15: the stepped value is one more modulo 256; the patterns of A and of M decode to other instructions. -/
theorem incrementKeepsTheCarry : Obligations.IncrementKeepsTheCarry := by
  refine ⟨fun s r _ => ⟨_, exec_inrR r s, ?value, s.stepReg_steps r (s.reg r + 1)⟩,
    fun r notA => .of_decode (decode_increment notA []), .of_decode rfl, .of_decode rfl⟩
  rw [State.stepReg_reg, if_pos rfl, byte_add_one_toNat]

/-- Settles O16: the stepped value is one less modulo 256; the patterns of A and of M decode to other instructions. -/
theorem decrementKeepsTheCarry : Obligations.DecrementKeepsTheCarry := by
  refine ⟨fun s r _ => ⟨_, exec_dcrR r s, ?value, s.stepReg_steps r (s.reg r - 1)⟩,
    fun r notA => .of_decode (decode_decrement notA []), .of_decode rfl, .of_decode rfl⟩
  rw [State.stepReg_reg, if_pos rfl, byte_sub_one_toNat]

end Sys2Proof.Machine
end
section
/-! SUPPORT and the statements of 41_accumulator_group.md: the eight operations in their three operand forms and what each leaves
behind; the sums and differences that the carry chains; A and the carry as one ring of nine bits, which two of the rotates turn. -/

namespace Sys2Proof.Machine

/-! ## The eight operations and their operand forms -/

/-- The operation of the field `ppp` with the operand `v` (30_encoding.md R92, 41_accumulator_group.md R134 to R157). -/
def State.aluOp (s : State) (ppp : BitVec 3) (v : Byte) : State :=
  match ppp.toNat with
  | 0 => s.aluAdd v false
  | 1 => s.aluAdd v s.flags.cy
  | 2 => s.aluSub v false
  | 3 => s.aluSub v s.flags.cy
  | 4 => s.aluLogic (s.reg .a &&& v)
  | 5 => s.aluLogic (s.reg .a ^^^ v)
  | 6 => s.aluLogic (s.reg .a ||| v)
  | _ => s.aluCompare v

theorem exec_aluRegister (ppp : BitVec 3) (src : Reg) (s : State) :
    exec (aluRegister ppp src) s = .next (s.aluOp ppp (s.reg src)) := by
  obtain ⟨k⟩ := ppp
  fin_cases k <;> rfl

theorem exec_aluImmediate (ppp : BitVec 3) (v : Byte) (s : State) :
    exec (aluImmediate ppp v) s = .next (s.aluOp ppp v) := by
  obtain ⟨k⟩ := ppp
  fin_cases k <;> rfl

/-- The memory form reads M once and is then the operation on what M reads as (41_accumulator_group.md R162). -/
theorem exec_aluMemory {s : State} {v : Byte} {n : Nat} (ppp : BitVec 3) (h : OperandM s v n) :
    exec (aluMemory ppp) s = .next ((s.setDraws n).aluOp ppp v) := by
  have after (op : Byte × State → State) : Host.Outcome.next (op s.readM) = (.next (op (v, s.setDraws n)) : Result) := by
    rw [h.readM_eq]
  obtain ⟨k⟩ := ppp
  fin_cases k
  · exact after fun m => m.2.aluAdd m.1 false
  · exact after fun m => m.2.aluAdd m.1 s.flags.cy
  · exact after fun m => m.2.aluSub m.1 false
  · exact after fun m => m.2.aluSub m.1 s.flags.cy
  · exact after fun m => m.2.aluLogic (s.reg .a &&& m.1)
  · exact after fun m => m.2.aluLogic (s.reg .a ^^^ m.1)
  · exact after fun m => m.2.aluLogic (s.reg .a ||| m.1)
  · exact after fun m => m.2.aluCompare m.1

/-! ## What an operation leaves behind, after the draws have come to `n` -/

theorem resultFlags_iff (carry : Bool) (v : Byte) :
    (resultFlags carry v).cy = carry ∧ ((resultFlags carry v).z = true ↔ v = 0) ∧ (resultFlags carry v).s = v.msb ∧
      ((resultFlags carry v).p = true ↔ onesCount v % 2 = 0) :=
  (Flags.setCarry ⟨carry, false, false, false⟩ carry).setZSP_iff v

/-- A result in the accumulator with all four flags from it, and nothing else (41_accumulator_group.md R134 to R154). -/
theorem State.aluResult_outcome (s : State) (n : Nat) (v : Byte) (carry : Bool) :
    AluOutcome s ((s.setDraws n).aluResult v carry) v carry := by
  obtain ⟨cy, zero, sign, parity⟩ := resultFlags_iff carry v
  exact ⟨(s.setDraws n).reg_setReg_self .a v, .setReg (s.setDraws n) .a v, cy, zero, sign, parity, .of_compute s _ _ n⟩

theorem State.aluAdd_outcome (s : State) (n : Nat) (v : Byte) (cin : Bool) :
    AluOutcome s ((s.setDraws n).aluAdd v cin) (BitVec.ofNat 8 ((s.reg .a).toNat + v.toNat + cin.toNat))
      (decide (255 < (s.reg .a).toNat + v.toNat + cin.toNat)) :=
  s.aluResult_outcome n _ _

/-- The difference with a borrow-in, kept above zero by two turns of the byte. -/
theorem sub8_fst (a v : Byte) (bin : Bool) : (sub8 a v bin).1 = BitVec.ofNat 8 (512 + a.toNat - v.toNat - bin.toNat) := by
  apply BitVec.eq_of_toNat_eq
  have value := sub8_fst_toInt a v bin
  have borrow := bin.toNat_le
  rw [BitVec.toNat_ofNat]
  omega

theorem State.aluSub_outcome (s : State) (n : Nat) (v : Byte) (bin : Bool) :
    AluOutcome s ((s.setDraws n).aluSub v bin) (BitVec.ofNat 8 (512 + (s.reg .a).toNat - v.toNat - bin.toNat))
      (decide ((s.reg .a).toNat < v.toNat + bin.toNat)) := by
  rw [← sub8_fst, ← sub8_snd]
  exact s.aluResult_outcome n _ _

/-- Without a borrow-in, the difference of the words. -/
theorem State.aluSub_false_outcome (s : State) (n : Nat) (v : Byte) :
    AluOutcome s ((s.setDraws n).aluSub v false) (s.reg .a - v) (decide ((s.reg .a).toNat < v.toNat)) := by
  have h := s.aluSub_outcome n v false
  rwa [← sub8_fst, sub8_false_fst] at h

/-- The flags of the difference, and no register (41_accumulator_group.md R155 to R157). -/
theorem State.aluCompare_outcome (s : State) (n : Nat) (v : Byte) : CompareOutcome s ((s.setDraws n).aluCompare v) v := by
  have flags : ((s.setDraws n).aluCompare v).flags = resultFlags (decide ((s.reg .a).toNat < v.toNat)) (s.reg .a - v) := by
    rw [← sub8_false_fst]
    exact congrArg (resultFlags · _) (sub8_snd (s.reg .a) v false)
  obtain ⟨carry, zero, sign, parity⟩ := resultFlags_iff (decide ((s.reg .a).toNat < v.toNat)) (s.reg .a - v)
  rw [← flags] at carry zero sign parity
  refine ⟨fun _ => rfl, ?_, zero.trans sub_eq_zero, sign, parity, .of_compute s _ _ n⟩
  rw [carry, decide_eq_true_iff]

/-! ## ADD, ADC, SUB and SBB -/

/-- Settles O18: both forms of both additions are the addition of their operand. -/
theorem addRegisterAndImmediate : Obligations.AddRegisterAndImmediate := fun s src v =>
  ⟨⟨_, exec_aluRegister 0b000#3 src s, rfl, s.aluAdd_outcome s.draws (s.reg src) false⟩,
    ⟨_, exec_aluImmediate 0b000#3 v s, rfl, s.aluAdd_outcome s.draws v false⟩,
    ⟨_, exec_aluRegister 0b001#3 src s, rfl, s.aluAdd_outcome s.draws (s.reg src) s.flags.cy⟩,
    ⟨_, exec_aluImmediate 0b001#3 v s, rfl, s.aluAdd_outcome s.draws v s.flags.cy⟩⟩

/-- Settles O19: after the read of M, the additions of what it reads as. -/
theorem addMemory : Obligations.AddMemory := fun s v n operand =>
  ⟨⟨_, exec_aluMemory 0b000#3 operand, rfl, s.aluAdd_outcome n v false⟩,
    ⟨_, exec_aluMemory 0b001#3 operand, rfl, s.aluAdd_outcome n v s.flags.cy⟩⟩

/-- Settles O20: both forms of both subtractions are the subtraction of their operand. -/
theorem subtractRegisterAndImmediate : Obligations.SubtractRegisterAndImmediate := fun s src v =>
  ⟨⟨_, exec_aluRegister 0b010#3 src s, rfl, s.aluSub_false_outcome s.draws (s.reg src)⟩,
    ⟨_, exec_aluImmediate 0b010#3 v s, rfl, s.aluSub_false_outcome s.draws v⟩,
    ⟨_, exec_aluRegister 0b011#3 src s, rfl, s.aluSub_outcome s.draws (s.reg src) s.flags.cy⟩,
    ⟨_, exec_aluImmediate 0b011#3 v s, rfl, s.aluSub_outcome s.draws v s.flags.cy⟩⟩

/-- Settles O21: after the read of M, the subtractions of what it reads as. -/
theorem subtractMemory : Obligations.SubtractMemory := fun s v n operand =>
  ⟨⟨_, exec_aluMemory 0b010#3 operand, rfl, s.aluSub_false_outcome n v⟩,
    ⟨_, exec_aluMemory 0b011#3 operand, rfl, s.aluSub_outcome n v s.flags.cy⟩⟩

/-! ## ANA, XRA and ORA -/

/-- Settles O22: both forms of the three operations are a result with the carry cleared. -/
theorem logicRegisterAndImmediate : Obligations.LogicRegisterAndImmediate := fun s src v =>
  ⟨⟨_, exec_aluRegister 0b100#3 src s, rfl, s.aluResult_outcome s.draws _ false⟩,
    ⟨_, exec_aluImmediate 0b100#3 v s, rfl, s.aluResult_outcome s.draws _ false⟩,
    ⟨_, exec_aluRegister 0b101#3 src s, rfl, s.aluResult_outcome s.draws _ false⟩,
    ⟨_, exec_aluImmediate 0b101#3 v s, rfl, s.aluResult_outcome s.draws _ false⟩,
    ⟨_, exec_aluRegister 0b110#3 src s, rfl, s.aluResult_outcome s.draws _ false⟩,
    ⟨_, exec_aluImmediate 0b110#3 v s, rfl, s.aluResult_outcome s.draws _ false⟩⟩

/-- Settles O23: after the read of M, a result with the carry cleared. -/
theorem logicMemory : Obligations.LogicMemory := fun s _ n operand =>
  ⟨⟨_, exec_aluMemory 0b100#3 operand, rfl, s.aluResult_outcome n _ false⟩,
    ⟨_, exec_aluMemory 0b101#3 operand, rfl, s.aluResult_outcome n _ false⟩,
    ⟨_, exec_aluMemory 0b110#3 operand, rfl, s.aluResult_outcome n _ false⟩⟩

/-! ## CMP -/

/-- Settles O24: both forms are the comparison with their operand. -/
theorem compareRegisterAndImmediate : Obligations.CompareRegisterAndImmediate := fun s src v =>
  ⟨⟨_, exec_aluRegister 0b111#3 src s, rfl, s.aluCompare_outcome s.draws (s.reg src)⟩,
    ⟨_, exec_aluImmediate 0b111#3 v s, rfl, s.aluCompare_outcome s.draws v⟩⟩

/-- Settles O25: after the read of M, the comparison with what it reads as. -/
theorem compareMemory : Obligations.CompareMemory := fun s v n operand =>
  ⟨_, exec_aluMemory 0b111#3 operand, rfl, s.aluCompare_outcome n v⟩

/-! ## The carry between two bytes -/

theorem toNat_decide (p : Prop) [Decidable p] : (decide p).toNat = if p then 1 else 0 := Bool.cond_decide p 1 0

/-- The sum is the byte and its carry, of weight 256 (41_accumulator_group.md R131). -/
theorem add8_chain (a v : Byte) (cin : Bool) :
    (add8 a v cin).1.toNat + 256 * (add8 a v cin).2.toNat = a.toNat + v.toNat + cin.toNat := by
  have carry := cin.toNat_le
  rw [add8_fst_toNat, add8_snd, toNat_decide]
  split <;> omega

/-- The difference is the byte less its borrow, of weight 256 (41_accumulator_group.md R132). -/
theorem sub8_chain (a v : Byte) (bin : Bool) :
    ((sub8 a v bin).1.toNat : Int) - 256 * (sub8 a v bin).2.toNat = a.toNat - v.toNat - bin.toNat := by
  have borrow := bin.toNat_le
  rw [sub8_fst_toInt, sub8_snd, toNat_decide]
  split <;> omega

/-- Settles O30: the carry of the low bytes cancels between the two sums, and the borrow between the two differences. -/
theorem carryChainsTwoBytes : Obligations.CarryChainsTwoBytes := by
  intro xh xl yh yl lo hi dl dh
  constructor
  · have low : lo.1.toNat + 256 * lo.2.toNat = xl.toNat + yl.toNat := add8_chain xl yl false
    have high : hi.1.toNat + 256 * hi.2.toNat = xh.toNat + yh.toNat + lo.2.toNat := add8_chain xh yh lo.2
    omega
  · have low : (dl.1.toNat : Int) - 256 * dl.2.toNat = xl.toNat - yl.toNat - 0 := sub8_chain xl yl false
    have high : (dh.1.toNat : Int) - 256 * dh.2.toNat = xh.toNat - yh.toNat - dl.2.toNat := sub8_chain xh yh dl.2
    omega

/-! ## A byte moved one place, with any bit at the end left free -/

theorem getLsbD_moveUp (v : Byte) (b : BitVec 1) {k : Nat} (h : k < 7) :
    (v.extractLsb' 0 7 ++ b : BitVec (7 + 1)).getLsbD (k + 1) = v.getLsbD k := by
  rw [BitVec.getLsbD_append, if_neg (by omega), BitVec.getLsbD_extractLsb']
  simp [h]

theorem getLsbD_moveUp_zero (v : Byte) (b : BitVec 1) : (v.extractLsb' 0 7 ++ b : BitVec (7 + 1)).getLsbD 0 = b.getLsbD 0 :=
  BitVec.getLsbD_append

theorem getLsbD_moveDown (v : Byte) (b : BitVec 1) {k : Nat} (h : k < 7) :
    (b ++ v.extractLsb' 1 7 : BitVec (1 + 7)).getLsbD k = v.getLsbD (k + 1) := by
  rw [BitVec.getLsbD_append, if_pos h, BitVec.getLsbD_extractLsb', Nat.add_comm]
  simp [h]

theorem getLsbD_moveDown_seven (v : Byte) (b : BitVec 1) : (b ++ v.extractLsb' 1 7 : BitVec (1 + 7)).getLsbD 7 = b.getLsbD 0 :=
  BitVec.getLsbD_append

/-! ## The bits of the rotates through the carry (41_accumulator_group.md R160, R161) -/

theorem rotateLeftCarry_getLsbD (v : Byte) (carry : Bool) {k : Nat} (h : k < 7) :
    (rotateLeftCarry v carry).1.getLsbD (k + 1) = v.getLsbD k := getLsbD_moveUp v _ h

theorem rotateLeftCarry_getLsbD_zero (v : Byte) (carry : Bool) : (rotateLeftCarry v carry).1.getLsbD 0 = carry :=
  (getLsbD_moveUp_zero v _).trans (BitVec.getLsbD_ofBool carry 0)

theorem rotateRightCarry_getLsbD (v : Byte) (carry : Bool) {k : Nat} (h : k < 7) :
    (rotateRightCarry v carry).1.getLsbD k = v.getLsbD (k + 1) := getLsbD_moveDown v _ h

theorem rotateRightCarry_getLsbD_seven (v : Byte) (carry : Bool) : (rotateRightCarry v carry).1.getLsbD 7 = carry :=
  (getLsbD_moveDown_seven v _).trans (BitVec.getLsbD_ofBool carry 0)

/-! ## A and the carry as a ring of nine bits -/

/-- A and the carry. -/
def State.ring (s : State) : Byte × Bool := (s.reg .a, s.flags.cy)

/-- The ring of nine bits: those of the byte from bit 0 up, then the carry. -/
def ringBit (x : Byte × Bool) (k : Nat) : Bool := if k < 8 then x.1.getLsbD k else x.2

/-- `RAL` on A and the carry (41_accumulator_group.md R160). -/
def ringLeft (x : Byte × Bool) : Byte × Bool := rotateLeftCarry x.1 x.2

/-- `RAR` on A and the carry (41_accumulator_group.md R161). -/
def ringRight (x : Byte × Bool) : Byte × Bool := rotateRightCarry x.1 x.2

theorem ringBit_of_lt (x : Byte × Bool) {k : Nat} (h : k < 8) : ringBit x k = x.1.getLsbD k := if_pos h

theorem ring_ext {x y : Byte × Bool} (h : ∀ k, k < 9 → ringBit x k = ringBit y k) : x = y := by
  refine Prod.ext (BitVec.eq_of_getLsbD_eq fun k low => ?_) (h 8 (by decide))
  rw [← ringBit_of_lt x low, ← ringBit_of_lt y low]
  exact h k (by omega)

/-- `RAL` moves every bit of the ring one place up. -/
theorem ringBit_ringLeft (x : Byte × Bool) {k : Nat} (h : k < 9) : ringBit (ringLeft x) ((k + 1) % 9) = ringBit x k := by
  obtain inside | rfl | rfl : k < 7 ∨ k = 7 ∨ k = 8 := by omega
  · rw [Nat.mod_eq_of_lt (by omega), ringBit_of_lt _ (by omega), ringBit_of_lt _ (by omega)]
    exact rotateLeftCarry_getLsbD x.1 x.2 inside
  · rfl
  · exact rotateLeftCarry_getLsbD_zero x.1 x.2

/-- `RAR` moves every bit of the ring one place down. -/
theorem ringBit_ringRight (x : Byte × Bool) {k : Nat} (h : k < 9) : ringBit (ringRight x) k = ringBit x ((k + 1) % 9) := by
  obtain inside | rfl | rfl : k < 7 ∨ k = 7 ∨ k = 8 := by omega
  · rw [Nat.mod_eq_of_lt (by omega), ringBit_of_lt _ (by omega), ringBit_of_lt _ (by omega)]
    exact rotateRightCarry_getLsbD x.1 x.2 inside
  · exact rotateRightCarry_getLsbD_seven x.1 x.2
  · rfl

theorem ringRight_ringLeft : Function.LeftInverse ringRight ringLeft := fun x =>
  ring_ext fun k h => by rw [ringBit_ringRight _ h, ringBit_ringLeft _ h]

theorem ringLeft_ringRight : Function.LeftInverse ringLeft ringRight := by
  refine fun x => ring_ext fun k h => ?_
  obtain ⟨j, below, rfl⟩ : ∃ j, j < 9 ∧ (j + 1) % 9 = k := ⟨(k + 8) % 9, Nat.mod_lt _ (by decide), by omega⟩
  rw [ringBit_ringLeft _ below, ringBit_ringRight _ below]

theorem ringBit_ringLeft_iterate (x : Byte × Bool) (n : Nat) {k : Nat} (h : k < 9) :
    ringBit (ringLeft^[n] x) ((k + n) % 9) = ringBit x k := by
  induction n with
  | zero => rw [Nat.add_zero, Nat.mod_eq_of_lt h]; rfl
  | succ n ih =>
    rw [Function.iterate_succ_apply', ← ih, ← ringBit_ringLeft _ (Nat.mod_lt (k + n) (by decide : 9 > 0)), Nat.mod_add_mod]
    rfl

/-- Nine places up is once around the ring. -/
theorem ringLeft_nine (x : Byte × Bool) : ringLeft^[9] x = x :=
  ring_ext fun k h => by rw [← ringBit_ringLeft_iterate x 9 h, Nat.add_mod_right, Nat.mod_eq_of_lt h]

theorem ringRight_nine (x : Byte × Bool) : ringRight^[9] x = x := by
  have undone := ringRight_ringLeft.iterate 9 x
  rwa [ringLeft_nine] at undone

/-! ## The rotates -/

theorem exec_rlc (s : State) : exec .rlc s = .next (s.aluRotate (rotateLeft (s.reg .a))) := rfl

theorem exec_rrc (s : State) : exec .rrc s = .next (s.aluRotate (rotateRight (s.reg .a))) := rfl

theorem exec_ral (s : State) : exec .ral s = .next (s.aluRotate (ringLeft s.ring)) := rfl

theorem exec_rar (s : State) : exec .rar s = .next (s.aluRotate (ringRight s.ring)) := rfl

/-- A rotate keeps zero, sign and parity, and changes nothing but A and the carry (41_accumulator_group.md R158 to R161). -/
theorem State.aluRotate_frame (s : State) (x : Byte × Bool) :
    (s.aluRotate x).flags.z = s.flags.z ∧ (s.aluRotate x).flags.s = s.flags.s ∧ (s.aluRotate x).flags.p = s.flags.p ∧
      SameRegsBut .a s (s.aluRotate x) ∧ SameOutsideAlu s (s.aluRotate x) ∧ SameDraws s (s.aluRotate x) :=
  ⟨rfl, rfl, rfl, .setReg s .a x.1, .of_compute s _ _ s.draws, rfl⟩

@[simp] theorem State.ring_aluRotate (s : State) (x : Byte × Bool) : (s.aluRotate x).ring = x := rfl

@[simp] theorem State.aluRotate_aluRotate (s : State) (x y : Byte × Bool) : (s.aluRotate x).aluRotate y = s.aluRotate y := rfl

@[simp] theorem State.aluRotate_ring (s : State) : s.aluRotate s.ring = s := rfl

/-- Settles O26: the bytes decode to the rotates, whose bits are those of the two lemmas on each. -/
theorem rotatesThroughTheCarry : Obligations.RotatesThroughTheCarry :=
  ⟨.of_decode (decode_rotate 0b010#3 []), .of_decode (decode_rotate 0b011#3 []), fun s =>
    ⟨⟨_, exec_ral s, rotateLeftCarry_getLsbD_zero (s.reg .a) s.flags.cy, fun _ => rotateLeftCarry_getLsbD (s.reg .a) s.flags.cy, rfl,
        s.aluRotate_frame _⟩,
      ⟨_, exec_rar s, rotateRightCarry_getLsbD_seven (s.reg .a) s.flags.cy, fun _ => rotateRightCarry_getLsbD (s.reg .a) s.flags.cy, rfl,
        s.aluRotate_frame _⟩⟩⟩

/-- `RLC` moves bit 7 to bit 0, every other bit one place up (41_accumulator_group.md R158). -/
theorem rotateLeft_getLsbD (v : Byte) {k : Nat} (h : k < 8) : (rotateLeft v).1.getLsbD ((k + 1) % 8) = v.getLsbD k := by
  rcases Nat.lt_succ_iff_lt_or_eq.mp h with inside | rfl
  · rw [Nat.mod_eq_of_lt (by omega)]
    exact getLsbD_moveUp v _ inside
  · exact (getLsbD_moveUp_zero v _).trans (BitVec.getLsbD_extractLsb' 7 1 v 0)

/-- `RRC` moves bit 0 to bit 7, every other bit one place down (41_accumulator_group.md R159). -/
theorem rotateRight_getLsbD (v : Byte) {k : Nat} (h : k < 8) : (rotateRight v).1.getLsbD k = v.getLsbD ((k + 1) % 8) := by
  rcases Nat.lt_succ_iff_lt_or_eq.mp h with inside | rfl
  · rw [Nat.mod_eq_of_lt (by omega)]
    exact getLsbD_moveDown v _ inside
  · exact (getLsbD_moveDown_seven v _).trans (BitVec.getLsbD_extractLsb' 0 1 v 0)

/-- Settles O27: the bits of A turn one place around its eight, and the carry is a copy of the bit that goes around. -/
theorem rotatesAroundTheAccumulator : Obligations.RotatesAroundTheAccumulator := fun s =>
  ⟨⟨_, exec_rlc s, fun _ h => rotateLeft_getLsbD (s.reg .a) h, rfl, s.aluRotate_frame _⟩,
    ⟨_, exec_rrc s, fun _ h => rotateRight_getLsbD (s.reg .a) h, rfl, s.aluRotate_frame _⟩⟩

/-- Settles O28: one turn of the ring undoes the other, and a rotate changes nothing but the ring. -/
theorem rotatesThroughTheCarryAreInverse : Obligations.RotatesThroughTheCarryAreInverse := by
  refine fun s => ⟨?left, ?right⟩
  case left =>
    rw [execAll_cons_of_next (exec_ral s), execAll_cons_of_next (exec_rar _), State.ring_aluRotate, ringRight_ringLeft]
    rfl
  case right =>
    rw [execAll_cons_of_next (exec_rar s), execAll_cons_of_next (exec_ral _), State.ring_aluRotate, ringLeft_ringRight]
    rfl

/-- An instruction that turns the ring, run `n` times, turns it `n` places and changes nothing else. -/
theorem execAll_replicate_of_ring {i : Instr} {turn : Byte × Bool → Byte × Bool}
    (h : ∀ s, exec i s = .next (s.aluRotate (turn s.ring))) (n : Nat) (s : State) : execAll (List.replicate n i) s = .next (s.aluRotate (turn^[n] s.ring)) := by
  induction n generalizing s with
  | zero => rfl
  | succ n ih => rw [List.replicate_succ, execAll_cons_of_next (h s), ih, State.ring_aluRotate, State.aluRotate_aluRotate,
      Function.iterate_succ_apply]

/-- Settles O29: nine turns bring the ring around. -/
theorem nineRotatesRestoreTheAccumulator : Obligations.NineRotatesRestoreTheAccumulator := fun s =>
  ⟨by rw [execAll_replicate_of_ring exec_ral, ringLeft_nine, State.aluRotate_ring],
    by rw [execAll_replicate_of_ring exec_rar, ringRight_nine, State.aluRotate_ring]⟩

end Sys2Proof.Machine
end
section
/-! SUPPORT and the statements of 42_pc_stack_control.md: what a jump, a push and a pop leave behind, made or not, let or refused by the
stack policy; every transfer is one of these on its flag and sense. -/

namespace Sys2Proof.Machine

/-! ## Jumps -/

theorem SameOutsideStack.setPc {s t : State} (h : SameOutsideStack s t) (a : Addr) : SameOutsideStack s (t.setPc a) := h

/-- A jump, made or not, writes the program counter's entry at most (42_pc_stack_control.md R180). -/
theorem State.jumpIf_outcome (s : State) (taken : Bool) (target : Addr) : JumpOutcome s (s.jumpIf taken target) taken target := by
  cases taken
  case false => exact ⟨rfl, ⟨rfl, rfl, fun _ _ => rfl⟩, .refl s⟩
  case true => exact ⟨s.pc_setPc target, ⟨rfl, rfl, fun k other => (s.entry_setPc k target).trans (if_neg other)⟩, .setPc (.refl s) target⟩

theorem exec_jmp (target : Addr) (s : State) : exec (.jmp target) s = .next (s.jumpIf true target) := rfl

/-- Settles O31: the bytes decode to the jump for every middle field, and the jump is one that is made. -/
theorem jumpGoesToItsTarget : Obligations.JumpGoesToItsTarget := by
  refine ⟨fun x b2 b3 t h => ?encoding, fun s target => ⟨_, exec_jmp target s, s.jumpIf_outcome true target⟩⟩
  case encoding =>
    obtain rfl := eq_addrOf h
    exact .of_decode (decode_jmp x b2 b3 [])

/-- Settles O32: the sense bit 0 jumps on the flag clear, 1 on the flag set, in the order of the flag codes. -/
theorem conditionalJumpsTestTheirFlag : Obligations.ConditionalJumpsTestTheirFlag := by
  intro s a
  have whenClear : ∀ cc, JumpOutcome s (s.jumpIf (s.flags.taken false cc) a) (!s.flags.condition cc) a := fun cc =>
    (taken_eq s.flags cc).1 ▸ s.jumpIf_outcome _ a
  have whenSet : ∀ cc, JumpOutcome s (s.jumpIf (s.flags.taken true cc) a) (s.flags.condition cc) a := fun cc =>
    (taken_eq s.flags cc).2 ▸ s.jumpIf_outcome _ a
  exact ⟨⟨_, rfl, whenClear 0⟩, ⟨_, rfl, whenClear 1⟩, ⟨_, rfl, whenClear 2⟩, ⟨_, rfl, whenClear 3⟩,
    ⟨_, rfl, whenSet 0⟩, ⟨_, rfl, whenSet 1⟩, ⟨_, rfl, whenSet 2⟩, ⟨_, rfl, whenSet 3⟩⟩

/-! ## Calls and restarts -/

/-- A push writes the entry one up, which is not the one that keeps the return address (10_state.md R31). -/
theorem State.push_outcome (s : State) (target : Addr) : CallOutcome s (s.push target) true target := by
  have kept : ∀ k, k ≠ s.sp + 1 → (s.push target).entry k = s.entry k := fun k other => (s.entry_push k target).trans (if_neg other)
  have below : s.sp ≠ s.sp + 1 := level_ne_add (n := 0) s.sp (by decide)
  exact ⟨⟨rfl, rfl, s.pc_push target, kept s.sp below, kept⟩, .push (.refl s) target⟩

/-- A push is made unless the stack policy refuses it (10_state.md R32). -/
theorem State.tryPush_outcome (s : State) (target : Addr) :
    (¬ s.PushRefused → ∃ t, s.tryPush target = .next t ∧ CallOutcome s t true target) ∧
      (s.PushRefused → s.tryPush target = .refused .pushAtDepthSeven) :=
  ⟨fun allowed => ⟨_, State.tryPush_of_allowed target allowed, s.push_outcome target⟩, State.tryPush_of_refused target⟩

/-- A call that is not made changes nothing and meets no policy. -/
theorem State.callIf_outcome (s : State) (taken : Bool) (target : Addr) :
    ((taken = true → ¬ s.PushRefused) → ∃ t, s.callIf taken target = .next t ∧ CallOutcome s t taken target) ∧
      (taken = true → s.PushRefused → s.callIf taken target = .refused .pushAtDepthSeven) := by
  cases taken
  case false => exact ⟨fun _ => ⟨s, rfl, ⟨rfl, rfl, fun _ => rfl⟩, .refl s⟩, nofun⟩
  case true =>
    obtain ⟨made, refused⟩ := s.tryPush_outcome target
    exact ⟨fun allowed => made (allowed rfl), fun _ => refused⟩

/-- Settles O33: the call is a push of its target. -/
theorem callSavesTheReturnAddress : Obligations.CallSavesTheReturnAddress := by
  intro s target
  rw [exec_call]
  exact s.tryPush_outcome target

/-- Settles O37: the restart is a push of 8 * n. -/
theorem restartCallsEightTimesN : Obligations.RestartCallsEightTimesN := by
  intro s n
  rw [exec_rst, restartAddr_eq]
  exact s.tryPush_outcome _

/-- Settles O34: each row calls on its flag clear, for the sense bit 0, or set, for 1. -/
theorem conditionalCallsTestTheirFlag : Obligations.ConditionalCallsTestTheirFlag := by
  intro s a i taken row
  have meaning : exec i s = s.callIf taken a := by
    have whenClear := fun cc => congrArg (s.callIf · a) (taken_eq s.flags cc).1
    have whenSet := fun cc => congrArg (s.callIf · a) (taken_eq s.flags cc).2
    simp only [List.mem_cons, List.not_mem_nil, or_false, Prod.mk.injEq] at row
    rcases row with ⟨rfl, rfl⟩ | ⟨rfl, rfl⟩ | ⟨rfl, rfl⟩ | ⟨rfl, rfl⟩ | ⟨rfl, rfl⟩ | ⟨rfl, rfl⟩ | ⟨rfl, rfl⟩ | ⟨rfl, rfl⟩
    exacts [whenClear 0, whenClear 1, whenClear 2, whenClear 3, whenSet 0, whenSet 1, whenSet 2, whenSet 3]
  rw [meaning]
  exact s.callIf_outcome taken a

/-! ## Returns -/

/-- A pop moves the pointer and the depth and writes no entry (10_state.md R31). -/
theorem State.pop_outcome (s : State) : ReturnOutcome s s.pop true :=
  ⟨⟨rfl, rfl, s.pc_pop, s.pop_entry⟩, .setLevel (.refl s) _ _⟩

/-- A pop is made unless the stack policy refuses it (10_state.md R32). -/
theorem State.tryPop_outcome (s : State) :
    (¬ s.PopRefused → ∃ t, s.tryPop = .next t ∧ ReturnOutcome s t true) ∧ (s.PopRefused → s.tryPop = .refused .popAtDepthZero) :=
  ⟨fun allowed => ⟨_, State.tryPop_of_allowed allowed, s.pop_outcome⟩, State.tryPop_of_refused⟩

/-- A return that is not made changes nothing and meets no policy. -/
theorem State.returnIf_outcome (s : State) (taken : Bool) :
    ((taken = true → ¬ s.PopRefused) → ∃ t, s.returnIf taken = .next t ∧ ReturnOutcome s t taken) ∧
      (taken = true → s.PopRefused → s.returnIf taken = .refused .popAtDepthZero) := by
  cases taken
  case false => exact ⟨fun _ => ⟨s, rfl, ⟨rfl, rfl, fun _ => rfl⟩, .refl s⟩, nofun⟩
  case true =>
    obtain ⟨made, refused⟩ := s.tryPop_outcome
    exact ⟨fun allowed => made (allowed rfl), fun _ => refused⟩

/-- Settles O35: the return is a pop. -/
theorem returnExposesTheEntryBelow : Obligations.ReturnExposesTheEntryBelow := by
  intro s
  rw [exec_ret]
  exact s.tryPop_outcome

/-- Settles O36: each row returns on its flag clear, for the sense bit 0, or set, for 1. -/
theorem conditionalReturnsTestTheirFlag : Obligations.ConditionalReturnsTestTheirFlag := by
  intro s i taken row
  have meaning : exec i s = s.returnIf taken := by
    have whenClear := fun cc => congrArg s.returnIf (taken_eq s.flags cc).1
    have whenSet := fun cc => congrArg s.returnIf (taken_eq s.flags cc).2
    simp only [List.mem_cons, List.not_mem_nil, or_false, Prod.mk.injEq] at row
    rcases row with ⟨rfl, rfl⟩ | ⟨rfl, rfl⟩ | ⟨rfl, rfl⟩ | ⟨rfl, rfl⟩ | ⟨rfl, rfl⟩ | ⟨rfl, rfl⟩ | ⟨rfl, rfl⟩ | ⟨rfl, rfl⟩
    exacts [whenClear 0, whenClear 1, whenClear 2, whenClear 3, whenSet 0, whenSet 1, whenSet 2, whenSet 3]
  rw [meaning]
  exact s.returnIf_outcome taken

end Sys2Proof.Machine
end
section
/-! SUPPORT and the statements of 43_input_output.md: what a port read gives and leaves of the streams; what an instruction and a step do
to the output history. -/

namespace Sys2Proof.Machine

/-! ## A port read -/

theorem State.portIn_of_cons {s : State} {p : BitVec 3} {v : Byte} {rest : List Byte} (h : s.stream p = v :: rest) :
    s.portIn p = (v, s.setStream p rest) := by
  simp [State.portIn, h]

theorem State.portIn_of_nil {s : State} {p : BitVec 3} (h : s.stream p = []) :
    s.portIn p = (Config.freeByte s.draws, s.setDraws (s.draws + 1)) := by
  simp [State.portIn, h, State.draw]

@[simp] theorem State.stream_setStream_self (s : State) (p : BitVec 3) (bytes : List Byte) : (s.setStream p bytes).stream p = bytes := by
  rw [State.stream_setStream, if_pos rfl]

/-- A port read uses up nothing of another port's stream (43_input_output.md R233). -/
theorem State.portIn_stream_of_ne (s : State) {p q : BitVec 3} (other : q ≠ p) : (s.portIn p).2.stream q = s.stream q := by
  rcases s.portIn_cases p with ⟨_, rest, _, e⟩ | ⟨_, e⟩ <;> rw [e]
  · rw [State.stream_setStream, if_neg other]
  · rfl

/-! ## IN -/

/-- A register loaded after an access: the input streams and the count of draws are all that may differ besides it. -/
theorem Accessed.setReg_frame {s u : State} (h : Accessed s u) (dst : Reg) (v : Byte) :
    SameRegsBut dst s (u.setReg dst v) ∧ SameFlags s (u.setReg dst v) ∧ SameStack s (u.setReg dst v) ∧
      SameRunState s (u.setReg dst v) ∧ SameMemory s (u.setReg dst v) ∧ (u.setReg dst v).outputs = s.outputs ∧
      SameInterruptSource s (u.setReg dst v) ∧ SamePolicy s (u.setReg dst v) := by
  have regs : SameRegsBut dst s (u.setReg dst v) := fun r other => (u.reg_setReg_of_ne v other).trans (h.reg r)
  obtain ⟨_, _, rfl⟩ := h.eq
  exact ⟨regs, rfl, ⟨rfl, rfl, fun _ => rfl⟩, ⟨rfl, rfl⟩, .refl s, rfl, ⟨rfl, rfl⟩, rfl⟩

theorem exec_inP (p : BitVec 3) (s : State) : exec (.inP p) s = .next ((s.portIn p).2.setReg .a (s.portIn p).1) := rfl

/-- Settles O40: the input is a load of A after a port read, which takes from its own stream or draws. -/
theorem inputLoadsTheAccumulator : Obligations.InputLoadsTheAccumulator := by
  intro s p
  have access : Accessed s (s.portIn p).2 := .inr (.inr ⟨p, rfl⟩)
  obtain ⟨regs, flags, stack, run, mem, outputs, int, policy⟩ := access.setReg_frame .a (s.portIn p).1
  refine ⟨_, exec_inP p s, regs, flags, stack, run, mem, outputs, int, policy, fun q other => s.portIn_stream_of_ne other,
    fun v rest ready => ?next, fun empty => ?free⟩
  case next =>
    rw [State.portIn_of_cons ready]
    exact ⟨State.reg_setReg_self _ .a v, s.stream_setStream_self p rest, rfl⟩
  case free =>
    rw [State.portIn_of_nil empty]
    exact ⟨State.reg_setReg_self _ .a _, empty, rfl⟩

/-! ## OUT -/

theorem exec_outP (p : BitVec 5) (s : State) : exec (.outP p) s = .next (s.portOut p (s.reg .a)) := rfl

/-- Settles O41: the output is one event appended, for whatever port the field names. -/
theorem outputAppendsOneEvent : Obligations.OutputAppendsOneEvent := fun s p _ =>
  ⟨_, exec_outP p s, s.portOut_outputs p _, s.portOut_inputs p _, s.portOut_reg p _, s.portOut_flags p _,
    ⟨s.portOut_sp p _, s.portOut_depth p _, s.portOut_entry p _⟩, ⟨s.portOut_run p _, s.portOut_intreq p _⟩,
    ⟨s.portOut_byteAt p _, s.portOut_memMap p _⟩, ⟨s.portOut_intByte p _, s.portOut_intSource p _⟩, s.portOut_stackPolicy p _,
    s.portOut_draws p _⟩

/-! ## The output history -/

@[simp] theorem State.writeM_outputs (s : State) (v : Byte) : (s.writeM v).outputs = s.outputs := by
  rw [State.writeM, State.memWrite_eq]

/-- An instruction keeps the output history, or it is `OUT` and appends its event (43_input_output.md R233). -/
theorem Effect.outputs_cases {i : Instr} {s t : State} (h : Effect i s t) :
    t.outputs = s.outputs ∨ ∃ p, i = .outP p ∧ t.outputs = s.outputs ++ [⟨p, s.reg .a⟩] := by
  cases h with
  | compute u x f access =>
    obtain ⟨_, _, rfl⟩ := Accessed.eq access
    exact .inl rfl
  | store v _ => exact .inl (s.writeM_outputs v)
  | jump _ => exact .inl rfl
  | call _ _ => exact .inl rfl
  | ret _ => exact .inl rfl
  | nothing => exact .inl rfl
  | output p out => exact .inr ⟨p, out, rfl⟩
  | halt => exact .inl rfl

/-- Fetching an instruction, or taking the interrupt's, is no output. -/
theorem nextInstr_outputs {s u : State} {i : Instr} (h : s.nextInstr = some (i, u)) : u.outputs = s.outputs := by
  obtain ⟨w, _, _, rfl | rfl, rfl⟩ := nextInstr_state h <;> rfl

/-- Settles O57: of the fetch, the instruction and the environment only the instruction can append, and at most one event. -/
theorem outputHistoryOnlyGrows : Obligations.OutputHistoryOnlyGrows := by
  intro s t h
  rcases step_next_cases h with ⟨_, rfl⟩ | ⟨i, u, v, next, run, rfl⟩
  · exact .inl s.pollInt_outputs
  · rw [State.pollInt_outputs, ← nextInstr_outputs next]
    exact (exec_effect run).outputs_cases.imp id fun ⟨_, _, appended⟩ => ⟨_, appended⟩

end Sys2Proof.Machine
end
section
/-! The statements of 44_machine.md: what a halt keeps, and what a step in STOPPED with nothing pending keeps. -/

namespace Sys2Proof.Machine

/-! ## HLT -/

/-- Both halts do the same: STOPPED is entered (44_machine.md R240, R241). -/
theorem exec_hlt_or_hltFF {i : Instr} (halt : i = .hlt ∨ i = .hltFF) (s : State) : exec i s = .next (s.setRun .stopped) := by
  rcases halt with rfl | rfl <;> rfl

/-- What a change of `run` leaves unchanged. -/
theorem State.setRun_frame (s : State) (x : RunState) :
    SameRegs s (s.setRun x) ∧ SameFlags s (s.setRun x) ∧ SameStack s (s.setRun x) ∧ SameMemory s (s.setRun x) ∧
      SamePorts s (s.setRun x) ∧ SameInterruptSource s (s.setRun x) ∧ SamePolicy s (s.setRun x) ∧ SameDraws s (s.setRun x) :=
  ⟨s.setRun_reg x, s.setRun_flags x, ⟨s.setRun_sp x, s.setRun_depth x, s.setRun_entry x⟩, ⟨s.setRun_byteAt x, s.setRun_memMap x⟩,
    ⟨s.setRun_inputs x, s.setRun_outputs x⟩, ⟨s.setRun_intByte x, s.setRun_intSource x⟩, s.setRun_stackPolicy x, s.setRun_draws x⟩

/-- Settles O42: the three bytes decode to the two halts, and each changes `run` alone. -/
theorem haltEntersStopped : Obligations.HaltEntersStopped :=
  ⟨.of_decode (by decide), .of_decode (by decide), .of_decode (by decide), fun s _ halt =>
    ⟨_, exec_hlt_or_hltFF halt s, s.setRun_run _, s.setRun_intreq _, s.setRun_frame _⟩⟩

/-! ## STOPPED with nothing pending -/

/-- What the environment's action on INT leaves unchanged (60_exceptions.md R253). -/
theorem State.pollInt_frame (s : State) :
    SameRegs s s.pollInt ∧ SameFlags s s.pollInt ∧ SameStack s s.pollInt ∧ SameMemory s s.pollInt ∧ SamePorts s s.pollInt ∧
      SamePolicy s s.pollInt ∧ SameDraws s s.pollInt :=
  ⟨s.pollInt_reg, s.pollInt_flags, ⟨s.pollInt_sp, s.pollInt_depth, s.pollInt_entry⟩, ⟨s.pollInt_byteAt, s.pollInt_memMap⟩,
    ⟨s.pollInt_inputs, s.pollInt_outputs⟩, s.pollInt_stackPolicy, s.pollInt_draws⟩

/-- Settles O48: the step is the environment's action on INT alone, which an empty schedule makes none. -/
theorem stoppedWaitsForAnInterrupt : Obligations.StoppedWaitsForAnInterrupt := by
  intro s stopped quiet
  obtain ⟨regs, flags, stack, mem, ports, policy, draws⟩ := s.pollInt_frame
  exact ⟨s.pollInt, step_of_stopped stopped quiet, s.pollInt_run.trans stopped, regs, flags, stack, mem, ports, policy, draws,
    State.pollInt_of_nil⟩

end Sys2Proof.Machine
end
section
/-! The statements of 60_exceptions.md: the instruction a pending interrupt supplies, what a restart so supplied keeps, and when an
interrupt is pending after a step. -/

namespace Sys2Proof.Machine

/-! ## An interrupt taken -/

/-- Settles O46: the further bytes are fetched from the state after interrupt entry, which agrees with the decoder. -/
theorem interruptSuppliesTheFirstByte : Obligations.InterruptSuppliesTheFirstByte :=
  fun _ _ _ pending decoded more => step_of_interrupt pending decoded more

/-! ## An interrupt that supplies a restart -/

/-- An interrupt that supplies `RST n`, where the stack policy refuses its push, refuses the step (10_state.md R32, 60_exceptions.md R254). -/
theorem step_of_interrupt_restart_refused {s : State} {n : BitVec 3} (pending : s.intreq = true)
    (restart : s.intByte = opByte 0b00#2 n 0b101#3) (refused : s.PushRefused) : step s = .refused .pushAtDepthSeven := by
  have taken : (s.enterInterrupt.setPc (s.pc + BitVec.ofNat 14 0)).PushRefused := refused
  rw [step_of_interrupt pending (restart ▸ decode_restart n) (s.bytesAt_nil s.pc), List.length_nil,
    exec_refused_of_pushes rfl taken, endStep]

/-- Settles O47: interrupt entry keeps `pc`, the restart is a push that leaves it in the entry below, and the environment's action on INT
keeps all the statement speaks of. -/
theorem interruptRestartSavesTheNextAddress : Obligations.InterruptRestartSavesTheNextAddress := by
  intro s n pending restart
  refine ⟨fun allowed => ?made, step_of_interrupt_restart_refused pending restart⟩
  case made =>
    obtain ⟨⟨sp, depth, pc, saved, kept⟩, regs, flags, ⟨run, _⟩, mem, ⟨inputs, outputs⟩, _, policy, draws⟩ :=
      s.enterInterrupt.push_outcome (restartAddr n)
    refine ⟨_, step_of_interrupt_restart pending restart allowed, ?_⟩
    generalize s.enterInterrupt.push (restartAddr n) = u at sp depth pc saved kept regs flags run mem inputs outputs policy draws ⊢
    exact ⟨u.pollInt_pc.trans (pc.trans (restartAddr_eq n)), u.pollInt_sp.trans sp, u.pollInt_depth.trans depth,
      (u.pollInt_entry s.sp).trans saved, fun k other => (u.pollInt_entry k).trans (kept k other), u.pollInt_run.trans run,
      fun r => (u.pollInt_reg r).trans (regs r), u.pollInt_flags.trans flags, mem.trans (.pollInt u),
      ⟨u.pollInt_inputs.trans inputs, u.pollInt_outputs.trans outputs⟩, u.pollInt_stackPolicy.trans policy,
      u.pollInt_draws.trans draws⟩

/-! ## When an interrupt is pending -/

/-- No instruction raises an interrupt, takes one, or uses up the schedule. -/
theorem Effect.interrupt {i : Instr} {s t : State} (h : Effect i s t) : t.intreq = s.intreq ∧ t.intSource = s.intSource := by
  cases h with
  | compute u x f access =>
    obtain ⟨_, _, rfl⟩ := Accessed.eq access
    exact ⟨rfl, rfl⟩
  | store v _ =>
    rw [State.writeM, State.memWrite_eq]
    exact ⟨rfl, rfl⟩
  | jump _ => exact ⟨rfl, rfl⟩
  | call _ _ => exact ⟨rfl, rfl⟩
  | ret _ => exact ⟨rfl, rfl⟩
  | nothing => exact ⟨rfl, rfl⟩
  | output _ _ => exact ⟨rfl, rfl⟩
  | halt => exact ⟨rfl, rfl⟩

/-- Before its instruction acts, a step has taken the request pending, if any, and nothing of the schedule (60_exceptions.md R254). -/
theorem nextInstr_interrupt {s u : State} {i : Instr} (h : s.nextInstr = some (i, u)) :
    u.intreq = false ∧ u.intSource = s.intSource := by
  rcases nextInstr_cases h with ⟨_, supplied⟩ | ⟨quiet, _, fetched⟩
  · obtain ⟨_, _, _, _, rest⟩ := s.enterInterrupt.fetchRest_spec s.intByte
    obtain rfl := congrArg Prod.snd (supplied.trans rest)
    exact ⟨rfl, rfl⟩
  · obtain ⟨_, _, rest⟩ := s.fetchInstr_snd
    obtain rfl := (congrArg Prod.snd fetched).trans rest
    exact ⟨quiet, rfl⟩

/-- A step without an instruction has no interrupt pending (60_exceptions.md R256). -/
theorem quiet_of_nextInstr_none {s : State} (h : s.nextInstr = none) : s.intreq = false := by
  cases pending : s.intreq with
  | false => rfl
  | true => simp [State.nextInstr, pending] at h

/-- The environment acts last in a step, on a state with no interrupt pending and the schedule still whole. -/
theorem step_next_pollInt {s t : State} (h : step s = .next t) :
    ∃ v : State, v.intreq = false ∧ v.intSource = s.intSource ∧ t = v.pollInt := by
  rcases step_next_cases h with ⟨idle, rfl⟩ | ⟨i, u, v, next, run, rfl⟩
  · exact ⟨s, quiet_of_nextInstr_none idle, rfl, rfl⟩
  · obtain ⟨quiet, whole⟩ := nextInstr_interrupt next
    obtain ⟨intreq, intSource⟩ := (exec_effect run).interrupt
    exact ⟨v, intreq.trans quiet, intSource.trans whole, rfl⟩

/-- With nothing pending, a request is pending after the environment's action exactly when it raised INT (60_exceptions.md R253). -/
theorem State.pollInt_intreq_iff {s : State} (quiet : s.intreq = false) :
    s.pollInt.intreq = true ↔ ∃ j rest, s.intSource = some j :: rest := by
  refine ⟨fun pending => ?raised, fun ⟨_, _, raise⟩ => (State.pollInt_of_raise raise).1⟩
  case raised =>
    unfold State.pollInt at pending
    split at pending
    · simp [quiet] at pending
    · simp [quiet] at pending
    · exact ⟨_, _, by assumption⟩

/-- Settles O49: a step takes an earlier request before the environment acts, so what is pending after it is what the environment raised. -/
theorem pendingExactlyWhenRaised : Obligations.PendingExactlyWhenRaised := by
  intro s t h
  obtain ⟨v, quiet, whole, rfl⟩ := step_next_pollInt h
  rw [← whole]
  exact ⟨v.pollInt_intSource, State.pollInt_intreq_iff quiet, fun _ _ raise => (State.pollInt_of_raise raise).2⟩

end Sys2Proof.Machine
end
